-- ==== Sys2Proof/Word.lean ====
section
/-! DEFINITION. The word types of the JX11 voice engine (spec 00_scope.md R10): u32 words, binary32
words kept apart from them by a structure, and the bank of eight like things (10_state.md R28). -/

namespace Sys2Proof

/-- `u32`: a command word, a data word, the noise seed (R10). -/
abbrev Word := BitVec 32

/-- `f32`: an IEEE-754 binary32 value, held as its 32-bit pattern (R10). It is a type of its own so that
integer and floating-point arithmetic cannot be confused. `bits` is the spec's `bits(x)` and the
constructor is its `asf32(w)` (R12). -/
structure F32 where
  bits : Word
  deriving DecidableEq, Repr, Inhabited

/-- The index of one of the eight voices (R28). -/
abbrev VoiceIx := Fin 8

/-- Eight like things, one for each voice bank (R28). -/
structure Bank (α : Type) where
  v0 : α
  v1 : α
  v2 : α
  v3 : α
  v4 : α
  v5 : α
  v6 : α
  v7 : α
  deriving DecidableEq, Repr

/-- The element of bank `i`. -/
def Bank.get {α : Type} (b : Bank α) (i : VoiceIx) : α :=
  match i.val with
  | 0 => b.v0
  | 1 => b.v1
  | 2 => b.v2
  | 3 => b.v3
  | 4 => b.v4
  | 5 => b.v5
  | 6 => b.v6
  | _ => b.v7

/-- The bank with element `i` replaced. -/
def Bank.set {α : Type} (b : Bank α) (i : VoiceIx) (x : α) : Bank α :=
  match i.val with
  | 0 => { b with v0 := x }
  | 1 => { b with v1 := x }
  | 2 => { b with v2 := x }
  | 3 => { b with v3 := x }
  | 4 => { b with v4 := x }
  | 5 => { b with v5 := x }
  | 6 => { b with v6 := x }
  | _ => { b with v7 := x }

/-- The bank whose every element is `x`. -/
def Bank.all {α : Type} (x : α) : Bank α := ⟨x, x, x, x, x, x, x, x⟩

/-- The bank of the images under `f`. -/
def Bank.map {α β : Type} (f : α → β) (b : Bank α) : Bank β :=
  ⟨f b.v0, f b.v1, f b.v2, f b.v3, f b.v4, f b.v5, f b.v6, f b.v7⟩

/-- Two banks combined element by element. -/
def Bank.zip {α β γ : Type} (f : α → β → γ) (a : Bank α) (b : Bank β) : Bank γ :=
  ⟨f a.v0 b.v0, f a.v1 b.v1, f a.v2 b.v2, f a.v3 b.v3, f a.v4 b.v4, f a.v5 b.v5, f a.v6 b.v6, f a.v7 b.v7⟩

/-- The elements in ascending index order, the order of `for v in 0 .. 7` (R13). -/
def Bank.toList {α : Type} (b : Bank α) : List α := [b.v0, b.v1, b.v2, b.v3, b.v4, b.v5, b.v6, b.v7]

end Sys2Proof
end

