-- ==== Sys2Proof/Config.lean ====
section
/-! DEFINITION. The configuration of the engine (spec 00_scope.md R7 to R9, 43_filter.md R163): the record of
everything an implementation fixes, and the free values the spec leaves open, as constants with no body.
The configuration in force is `Sys2Proof.Machine.cfg` (Machine/Constants.lean). -/

namespace Sys2Proof

/-- The operation an arithmetic NaN comes from (R11). -/
inductive NanOp where
  | add | mul | div
  deriving DecidableEq, Repr

/-- FREE VALUE (R11, U10; log 1): sign and payload of the quiet NaN that an operation on these two operands
produces. The top bit is the sign, the other 22 are the payload below the quiet bit. -/
opaque Config.nanDraw : NanOp → F32 → F32 → BitVec 23

/-- FREE VALUE (R9, U11; log 2): sine of a positive non-zero operand, before the properties of R9 are imposed. -/
opaque Config.sinRaw : F32 → F32

/-- FREE VALUE (R9, U11; log 2): cosine of a non-zero operand. -/
opaque Config.cosRaw : F32 → F32

/-- FREE VALUE (R9, U11; log 2): exponential of a non-zero operand, before `EXP_pos` is imposed. -/
opaque Config.expRaw : F32 → F32

/-- FREE VALUE (R9, U11; log 2): power with a non-zero exponent. -/
opaque Config.powRaw : F32 → F32 → F32

/-- Which output buffer (R60). -/
inductive OutId where
  | left | right
  deriving DecidableEq, Repr

/-- FREE VALUE (20_memory.md R61, U9; log 14): what an output word no RENDER has written reads as. -/
opaque Config.unwrittenWord : OutId → Nat → F32

/-- The four pole registers of a filter (R163): `F.y[0..3]` under realisation A, `F.z[0..3]` under B. -/
structure Poles where
  p0 : F32
  p1 : F32
  p2 : F32
  p3 : F32
  deriving DecidableEq, Repr, Inhabited

/-- FREE VALUE (R163, R176; log 3): the coefficient map of a user-supplied LPF4 structure. -/
opaque Config.userCoefRaw : F32 → F32 → F32 → List F32

/-- FREE VALUE (R163, R176; log 3): the step of a user-supplied LPF4 structure, before `LPF4_silent` is imposed
(`Sys2Proof.Machine.userStepSilent`). -/
opaque Config.userStepRaw : List F32 → Poles → F32 → Poles × F32

/-- `LPF4_REALISATION` (R8): A the ladder, B the biquad cascade, or a user structure. -/
inductive Realisation where
  | ladder | biquad | user
  deriving DecidableEq, Repr

/-- `FENV_COMBINE` (R8, D20). -/
inductive FenvCombine where
  | sum | product
  deriving DecidableEq, Repr

/-- The configuration: one field for each named parameter of R7 and R8, the functions of R9, and the
filter primitive of R163. A claim about an operation can quantify over it. -/
structure Config where
  silence : F32
  envAttackTarget : F32
  envSwitchSum : F32
  sawLeak : F32
  cutoffMin : F32
  cutoffMax : F32
  qDiv : F32
  panSpan : F32
  minPeriod : F32
  noiseSeed : Word
  noiseMul : Word
  noiseInc : Word
  noiseMask : Word
  noiseBias : Word
  noiseOffset : F32
  pi : F32
  piOver4 : F32
  twoPi : F32
  oscOriginEps : F32
  sustain : BitVec 8
  panCentre : Nat
  panReset : F32
  analog : F32
  semi : F32
  semiRatio : F32
  lfoMax : Nat
  filterZip : F32
  pbCoeff : F32
  pressureCoeff : F32
  modwheelCoeff : F32
  filterCcPos : F32
  filterCcNeg : F32
  ccModwheel : Nat
  ccSustain : Nat
  ccFilterPos : Nat
  ccFilterNeg : Nat
  ccChannelMode : Nat
  pedalThreshold : Nat
  velFixed : BitVec 7
  velA : F32
  velB : Nat
  velC : F32
  velCentre : Int
  findBound : F32
  outRampSeconds : F32
  safeClamp : F32
  safeZero : F32
  fltPowerOnCutoff : F32
  fsPowerOn : F32
  fenvCombine : FenvCombine
  lpf4Realisation : Realisation
  bqQMin : F32
  bqQMax : F32
  outCapacity : Nat
  sin : F32 → F32
  cos : F32 → F32
  exp : F32 → F32
  pow : F32 → F32 → F32
  userCoef : F32 → F32 → F32 → List F32
  userStep : List F32 → Poles → F32 → Poles × F32

end Sys2Proof
end

