-- ==== Sys2Proof/Machine/Float.lean ====
section
/-! DEFINITION. IEEE-754 binary32 arithmetic on integers (spec 00_scope.md R10 to R12): round to nearest, ties to
even, subnormals kept, no trap. A finite value is a whole number of units of 2^-149, so every operation is exact
integer arithmetic followed by one rounding. -/

namespace Sys2Proof

/-- The sign bit, bit 31 (R10). -/
def F32.sign (x : F32) : Bool := x.bits.msb

/-- The magnitude: exponent and fraction, bits 30:0, as a number. Larger magnitude, larger absolute value. -/
def F32.mag (x : F32) : Nat := x.bits.toNat % 2 ^ 31

/-- The magnitude of infinity: exponent all ones, fraction zero. -/
def F32.infMag : Nat := 0x7F800000

/-- The value with this sign and magnitude. -/
def F32.ofSignMag (sign : Bool) (mag : Nat) : F32 := ⟨BitVec.ofNat 32 ((if sign then 2 ^ 31 else 0) + mag)⟩

def F32.isNaN (x : F32) : Bool := F32.infMag < x.mag

def F32.isInf (x : F32) : Bool := x.mag == F32.infMag

/-- Neither NaN nor infinite. -/
def F32.isFinite (x : F32) : Bool := x.mag < F32.infMag

/-- `+0` or `-0`. -/
def F32.isZero (x : F32) : Bool := x.mag == 0

/-- Finite, and not zero or subnormal: the exponent field is not zero. -/
def F32.isNormal (x : F32) : Bool := x.isFinite && 2 ^ 23 ≤ x.mag

/-- The absolute value of a finite magnitude in units of 2^-149 (R10: exponent bits 30:23, fraction bits 22:0). -/
def F32.unitsOfMag (mag : Nat) : Nat :=
  if mag / 2 ^ 23 = 0 then mag else (2 ^ 23 + mag % 2 ^ 23) * 2 ^ (mag / 2 ^ 23 - 1)

/-- The absolute value of a finite operand in units of 2^-149. -/
def F32.absUnits (x : F32) : Nat := F32.unitsOfMag x.mag

/-- The value of a finite operand in units of 2^-149. -/
def F32.units (x : F32) : Int := if x.sign then -(x.absUnits : Int) else x.absUnits

/-- The magnitude nearest to `num / den` units of 2^-149, ties to the even fraction; infinity beyond the largest
finite value (R11). No rule divides by `den = 0`. The matches stop evaluation at once on an operand that has no value
yet, so that a comparison of two symbolic results is cheap. -/
def F32.roundMag : Nat → Nat → Nat
  | 0, _ => 0
  | _ + 1, 0 => F32.infMag
  | n + 1, e + 1 =>
    let num := n + 1
    let den := e + 1
    let k := Nat.log2 (num / den) - 23
    let d := den * 2 ^ k
    let q := num / d
    let r := num % d
    let up := d < 2 * r || (2 * r == d && q % 2 == 1)
    min (k * 2 ^ 23 + (if up then q + 1 else q)) F32.infMag

/-- The quiet NaN with this sign and payload. -/
def F32.quietNaN (draw : BitVec 23) : F32 :=
  ⟨draw.extractLsb' 22 1 ++ (0x1FF#9 ++ draw.extractLsb' 0 22)⟩

/-- A NaN produced by an operation: some quiet NaN, sign and payload free (R11). -/
def F32.newNaN (op : NanOp) (a b : F32) : F32 := F32.quietNaN (Config.nanDraw op a b)

/-- Unary minus: the sign bit flips (R11). -/
def F32.neg (x : F32) : F32 := ⟨x.bits ^^^ 0x80000000⟩

/-- `+`. A zero sum of finite operands is `-0` only when both are negative zeros. -/
def F32.add (a b : F32) : F32 :=
  if a.isNaN || b.isNaN then F32.newNaN .add a b
  else if a.isInf then (if b.isInf && a.sign != b.sign then F32.newNaN .add a b else a)
  else if b.isInf then b
  else
    let n := a.units + b.units
    if n = 0 then F32.ofSignMag (a.sign && b.sign) 0
    else F32.ofSignMag (decide (n < 0)) (F32.roundMag n.natAbs 1)

/-- `-`: the sum with the negated operand. -/
def F32.sub (a b : F32) : F32 := a.add b.neg

/-- `*`. -/
def F32.mul (a b : F32) : F32 :=
  let sign := a.sign != b.sign
  if a.isNaN || b.isNaN then F32.newNaN .mul a b
  else if a.isInf || b.isInf then
    (if a.isZero || b.isZero then F32.newNaN .mul a b else F32.ofSignMag sign F32.infMag)
  else F32.ofSignMag sign (F32.roundMag (a.absUnits * b.absUnits) (2 ^ 149))

/-- `/`. Division by zero gives an infinity, or a NaN for zero by zero (R11). -/
def F32.div (a b : F32) : F32 :=
  let sign := a.sign != b.sign
  if a.isNaN || b.isNaN then F32.newNaN .div a b
  else if a.isInf then (if b.isInf then F32.newNaN .div a b else F32.ofSignMag sign F32.infMag)
  else if b.isInf then F32.ofSignMag sign 0
  else if b.isZero then (if a.isZero then F32.newNaN .div a b else F32.ofSignMag sign F32.infMag)
  else F32.ofSignMag sign (F32.roundMag (2 ^ 149 * a.absUnits) b.absUnits)

/-- The place of a non-NaN value in the order; both zeros have place 0. -/
def F32.place (x : F32) : Int := if x.sign then -(x.mag : Int) else x.mag

/-- `<`, false when an operand is NaN (R11). -/
def F32.lt (a b : F32) : Bool := !a.isNaN && !b.isNaN && decide (a.place < b.place)

/-- `<=`, false when an operand is NaN (R11). -/
def F32.le (a b : F32) : Bool := !a.isNaN && !b.isNaN && decide (a.place ≤ b.place)

/-- `>` (R11). -/
def F32.gt (a b : F32) : Bool := b.lt a

/-- `>=` (R11). -/
def F32.ge (a b : F32) : Bool := b.le a

/-- `==`, with `+0 == -0`, false when an operand is NaN (R11). -/
def F32.feq (a b : F32) : Bool := !a.isNaN && !b.isNaN && decide (a.place = b.place)

/-- `f32(n)` of an integer (R12). -/
def F32.ofInt (n : Int) : F32 := F32.ofSignMag (decide (n < 0)) (F32.roundMag (2 ^ 149 * n.natAbs) 1)

/-- `f32(n)` of a natural number (R12). -/
def F32.ofNat (n : Nat) : F32 := F32.ofInt n

/-- `FLOOR` (R9): the largest integral value not above the operand; NaN, infinities, zeros and values of magnitude
2^23 or more, which are integral, map to themselves. -/
def F32.floor (x : F32) : F32 :=
  if 0x4B000000 ≤ x.mag || x.isZero then x
  else if x.sign then (F32.ofNat ((x.absUnits + (2 ^ 149 - 1)) / 2 ^ 149)).neg
  else F32.ofNat (x.absUnits / 2 ^ 149)

/-- `int(x)` of a finite, integral, non-negative value (00_scope.md R16 (e)). -/
def F32.toNat (x : F32) : Nat := x.absUnits / 2 ^ 149

/-- `clamp(x, lo, hi)` (R12); NaN passes through. -/
def F32.clamp (x lo hi : F32) : F32 := if x.lt lo then lo else if x.gt hi then hi else x

/-! Constants of the rules that have no name in R8. -/

/-- `+0.0`. -/
def F32.zero : F32 := ⟨0x00000000⟩
/-- `0.5`. -/
def F32.half : F32 := ⟨0x3F000000⟩
/-- `1.0`. -/
def F32.one : F32 := ⟨0x3F800000⟩
/-- `2.0`. -/
def F32.two : F32 := ⟨0x40000000⟩
/-- `4.0`. -/
def F32.four : F32 := ⟨0x40800000⟩

end Sys2Proof
end

