-- ==== Sys2Proof/Machine/Constants.lean ====
section
/-! DEFINITION. The configuration in force (spec 00_scope.md R7 to R9): the defaults of R8 (log 5), and the functions
of R9 as free functions that satisfy its six named properties (log 2). -/

namespace Sys2Proof.Machine

/-- `SIN` (R9): free, but `SIN_zero` (a zero maps to itself) and `SIN_odd` (`SIN(-x) = -SIN(x)`) hold. -/
def freeSin (x : F32) : F32 :=
  if x.isZero then x else if x.sign then (Config.sinRaw x.neg).neg else Config.sinRaw x

/-- `COS` (R9): free, but `COS_zero` (a zero maps to 1.0) holds. -/
def freeCos (x : F32) : F32 := if x.isZero then F32.one else Config.cosRaw x

/-- `EXP` (R9): free, but `EXP_zero` (a zero maps to 1.0) and `EXP_pos` (a non-NaN operand gives a positive value or
`+0`) hold. -/
def freeExp (x : F32) : F32 :=
  if x.isZero then F32.one
  else if x.isNaN || (Config.expRaw x).gt F32.zero then Config.expRaw x
  else F32.zero

/-- `POW` (R9): free, but `POW_zero` (a zero exponent gives 1.0) holds. -/
def freePow (a b : F32) : F32 := if b.isZero then F32.one else Config.powRaw a b

/-- The configuration in force. -/
def cfg : Config where
  silence := ⟨0x38D1B717⟩
  envAttackTarget := ⟨0x40000000⟩
  envSwitchSum := ⟨0x40400000⟩
  sawLeak := ⟨0x3F7F3B64⟩
  cutoffMin := ⟨0x41F00000⟩
  cutoffMax := ⟨0x469C4000⟩
  qDiv := ⟨0x41F00000⟩
  panSpan := ⟨0x41C00000⟩
  minPeriod := ⟨0x40C00000⟩
  noiseSeed := 0x000056CE
  noiseMul := 0x0BB38435
  noiseInc := 0x3619636B
  noiseMask := 0x007FFFFF
  noiseBias := 0x40000000
  noiseOffset := ⟨0x40400000⟩
  pi := ⟨0x40490FDB⟩
  piOver4 := ⟨0x3F490FDB⟩
  twoPi := ⟨0x40C90FDB⟩
  oscOriginEps := ⟨0x3089705F⟩
  sustain := 0xFF
  panCentre := 60
  panReset := ⟨0x3F34FDF4⟩
  analog := ⟨0x3B03126F⟩
  semi := ⟨0x3D6C9820⟩
  semiRatio := ⟨0x3F879C7D⟩
  lfoMax := 32
  filterZip := ⟨0x3BA3D70A⟩
  pbCoeff := ⟨0x376C97A1⟩
  pressureCoeff := ⟨0x38D1B717⟩
  modwheelCoeff := ⟨0x36A7C5AC⟩
  filterCcPos := ⟨0x3CA3D70A⟩
  filterCcNeg := ⟨0xBCF5C28F⟩
  ccModwheel := 1
  ccSustain := 64
  ccFilterPos := 74
  ccFilterNeg := 75
  ccChannelMode := 120
  pedalThreshold := 64
  velFixed := 80
  velA := ⟨0x3B83126F⟩
  velB := 64
  velC := ⟨0x41000000⟩
  velCentre := 64
  findBound := ⟨0x42C80000⟩
  outRampSeconds := ⟨0x3D4CCCCD⟩
  safeClamp := ⟨0x3F800000⟩
  safeZero := ⟨0x40000000⟩
  fltPowerOnCutoff := ⟨0x43480000⟩
  fsPowerOn := ⟨0x472C4400⟩
  fenvCombine := .sum
  lpf4Realisation := .ladder
  bqQMin := ⟨0x3F3504F3⟩
  bqQMax := ⟨0x41000000⟩
  outCapacity := 8388607
  sin := freeSin
  cos := freeCos
  exp := freeExp
  pow := freePow
  userCoef := Config.userCoefRaw
  userStep := Config.userStepRaw

end Sys2Proof.Machine
end

