-- ==== Sys2Proof/Syntax.lean ====
section
/-! DEFINITION. The instructions of the JX11 voice engine, one constructor for each row of
spec/opcode_table.json, the names they use, and the words the port carries (30_encoding.md R80 to R91). -/

namespace Sys2Proof

/-- The parameter registers `P0` to `P26`, by name (10_state.md R40). -/
inductive ParamId where
  | noiseMix | envAttack | envDecay | envSustain | envRelease | oscMix | detune | tune | numVoices
  | volumeTrim | outputLevel | velocitySensitivity | ignoreVelocity | lfoInc | vibrato | pwmDepth
  | glideMode | glideRate | glideBend | filterKeyTracking | filterQ | filterLFODepth | filterAttack
  | filterDecay | filterSustain | filterRelease | filterEnvDepth
  deriving DecidableEq, Repr

/-- All parameter registers in index order (R40). -/
def ParamId.all : List ParamId :=
  [.noiseMix, .envAttack, .envDecay, .envSustain, .envRelease, .oscMix, .detune, .tune, .numVoices] ++
  [.volumeTrim, .outputLevel, .velocitySensitivity, .ignoreVelocity, .lfoInc, .vibrato, .pwmDepth] ++
  [.glideMode, .glideRate, .glideBend, .filterKeyTracking, .filterQ, .filterLFODepth, .filterAttack] ++
  [.filterDecay, .filterSustain, .filterRelease, .filterEnvDepth]

/-- Which of a voice's two envelopes (R22): `env` (amplitude) or `fenv` (filter). -/
inductive EnvSel where
  | amp | filt
  deriving DecidableEq, Repr

/-- Which of a voice's two oscillators (R24). -/
inductive OscSel where
  | one | two
  deriving DecidableEq, Repr

/-- The instructions. Operands are the fields of the row that the rules read; ignored bits are not part of
an instruction (log 13). The rows PSET, MIDI and MIDI.CC are umbrellas over more specific rows (log 12). The
micro-operations carry the operands their rules name (log 11). -/
inductive Instr where
  -- commands (R82)
  | nop
  | reset
  | alloc (blockSize : BitVec 24) (sampleRate : F32)
  | dealloc
  | pset (idx : BitVec 8) (wdata : Word)
  | midi (b0 b1 b2 : BitVec 8)
  | render (stereo : Bool) (n : BitVec 23)
  -- reserved opcodes (R87, R300); the operand is the rest of the opcode byte
  | reserved07
  | reserved08 (low : BitVec 3)
  | reserved10 (low : BitVec 4)
  | reserved20 (low : BitVec 5)
  | reserved40 (low : BitVec 6)
  | reserved80 (low : BitVec 7)
  -- PSET, one row for each register (R304)
  | psetNoiseMix (x : F32)
  | psetEnvAttack (x : F32)
  | psetEnvDecay (x : F32)
  | psetEnvSustain (x : F32)
  | psetEnvRelease (x : F32)
  | psetOscMix (x : F32)
  | psetDetune (x : F32)
  | psetTune (x : F32)
  | psetNumVoices (x : BitVec 8)
  | psetVolumeTrim (x : F32)
  | psetOutputLevel (x : F32)
  | psetVelocitySensitivity (x : F32)
  | psetIgnoreVelocity (x : Bool)
  | psetLfoInc (x : F32)
  | psetVibrato (x : F32)
  | psetPwmDepth (x : F32)
  | psetGlideMode (x : BitVec 8)
  | psetGlideRate (x : F32)
  | psetGlideBend (x : F32)
  | psetFilterKeyTracking (x : F32)
  | psetFilterQ (x : F32)
  | psetFilterLFODepth (x : F32)
  | psetFilterAttack (x : F32)
  | psetFilterDecay (x : F32)
  | psetFilterSustain (x : F32)
  | psetFilterRelease (x : F32)
  | psetFilterEnvDepth (x : F32)
  -- MIDI by status nibble (R84)
  | midiNoteOff (note : BitVec 7)
  | midiNoteOn (note vel : BitVec 7)
  | midiCc (ctl val : BitVec 7)
  | midiPressure (val : BitVec 7)
  | midiBend (d1 d2 : BitVec 7)
  | midiIgnored07 (status : BitVec 3)
  | midiIgnoredA
  | midiIgnoredC
  | midiIgnoredF
  -- control change by controller (R85)
  | ccModWheel (val : BitVec 7)
  | ccSustain (val : BitVec 7)
  | ccFilterPos (val : BitVec 7)
  | ccFilterNeg (val : BitVec 7)
  | ccChannelMode (low : BitVec 3)
  | ccOther (ctl val : BitVec 7)
  -- micro-operations (R91)
  | ngReset
  | ngNext
  | envReset (v : VoiceIx) (e : EnvSel)
  | envAttack (v : VoiceIx) (e : EnvSel)
  | envNext (v : VoiceIx) (e : EnvSel)
  | envRelease (v : VoiceIx) (e : EnvSel)
  | envIsActive (v : VoiceIx) (e : EnvSel)
  | envIsInAttack (v : VoiceIx) (e : EnvSel)
  | oscReset (v : VoiceIx) (o : OscSel)
  | oscNext (v : VoiceIx) (o : OscSel)
  | oscSquare (v : VoiceIx) (o : OscSel) (otherV : VoiceIx) (otherO : OscSel) (newPeriod : F32)
  | fltReset (v : VoiceIx)
  | fltUpdate (v : VoiceIx) (cutoffHz q : F32)
  | fltRender (v : VoiceIx) (x : F32)
  | voiceReset (v : VoiceIx)
  | voiceRender (v : VoiceIx) (input : F32)
  | voiceUpdateLfo (v : VoiceIx)
  | voiceUpdatePan (v : VoiceIx)
  | voiceRelease (v : VoiceIx)
  | synNoteOn (note vel : BitVec 7)
  | synNoteOff (note : BitVec 7)
  | synFindFree
  | synCalcPeriod (v : VoiceIx) (note : BitVec 7)
  | synStartVoice (v : VoiceIx) (note vel : BitVec 7)
  | synRestartMono (note : BitVec 7) (vel : BitVec 8)
  | synShiftQ
  | synNextQ
  | synLegato
  | synLfoStep
  | synUpdatePeriod (v : VoiceIx)
  | smSet (x : F32)
  | smNext
  | synSafe (x : F32)
  deriving DecidableEq, Repr

/-- The operand lines beside a micro-operation's select code. The spec gives micro-operations operands and no
wires for them; the lines are the model's own (DESIGN CHOICE, log 11). -/
structure SelectOperands where
  sel : Word
  x : Word
  y : Word
  deriving DecidableEq, Repr

/-- What stands at the port: a command, the pair `(cmd, wdata)` of R80, or a micro-operation's select code with its
operand lines (R91; internal to the engine, no host command carries one). -/
inductive PortWord where
  | command (cmd wdata : Word)
  | select (code : BitVec 8) (operands : SelectOperands)
  deriving DecidableEq, Repr

end Sys2Proof
end

