-- ==== Sys2Proof/WellFormed.lean ====
section
/-! DEFINITION. Well-formed instructions: those an encoding names as their own row. Operand ranges that are the
width of a field are in the types; what is left are the umbrella rows and the rows of the controllers, whose numbers the
configuration gives (00_scope.md R7, R8). -/

namespace Sys2Proof

/-- The controller numbers R8 names, in the order R244 tests them (46_midi_control.md). -/
def namedControllers (c : Config) : List Nat := [c.ccModwheel, c.ccSustain, c.ccFilterPos, c.ccFilterNeg]

/-- A seven-bit number that is none of `others`. -/
def isFreshController (n : Nat) (others : List Nat) : Bool := n < 128 && others.all (fun k => k != n)

/-- A controller number of the row MIDI.CC.OTHER: below CC_CHANNEL_MODE and none of the named ones (30_encoding.md
R85). -/
def isOtherControllerIn (c : Config) (ctl : BitVec 7) : Bool :=
  ctl.toNat < c.ccChannelMode && isFreshController ctl.toNat (namedControllers c)

/-- The same under the configuration in force: 0 to 119 except 1, 64, 74, 75 (R85). -/
def isOtherController (ctl : BitVec 7) : Bool := isOtherControllerIn Machine.cfg ctl

/-- PSET stands for itself only where no register row names its index (27 to 255, R87). MIDI and MIDI.CC never do:
every status nibble (R84) and every controller number (R85) has a row of its own. A controller row is well-formed where
its number is one the sub-decode gives that row: at the numbers of R8 every one is. -/
def Instr.wellFormedIn (c : Config) (i : Instr) : Bool :=
  match i with
  | .pset idx _ => 27 ≤ idx.toNat
  | .midi _ _ _ => false
  | .midiCc _ _ => false
  | .ccModWheel _ => isFreshController c.ccModwheel []
  | .ccSustain _ => isFreshController c.ccSustain [c.ccModwheel]
  | .ccFilterPos _ => isFreshController c.ccFilterPos [c.ccModwheel, c.ccSustain]
  | .ccFilterNeg _ => isFreshController c.ccFilterNeg [c.ccModwheel, c.ccSustain, c.ccFilterPos]
  | .ccChannelMode low =>
    c.ccChannelMode ≤ 120 + low.toNat && isFreshController (120 + low.toNat) (namedControllers c)
  | .ccOther ctl _ => isOtherControllerIn c ctl
  | .nop | .reset | .alloc _ _ | .dealloc | .render _ _ => true
  | .reserved07 | .reserved08 _ | .reserved10 _ | .reserved20 _ | .reserved40 _ | .reserved80 _ => true
  | .psetNoiseMix _ | .psetEnvAttack _ | .psetEnvDecay _ | .psetEnvSustain _ | .psetEnvRelease _ => true
  | .psetOscMix _ | .psetDetune _ | .psetTune _ | .psetNumVoices _ | .psetVolumeTrim _ => true
  | .psetOutputLevel _ | .psetVelocitySensitivity _ | .psetIgnoreVelocity _ | .psetLfoInc _ => true
  | .psetVibrato _ | .psetPwmDepth _ | .psetGlideMode _ | .psetGlideRate _ | .psetGlideBend _ => true
  | .psetFilterKeyTracking _ | .psetFilterQ _ | .psetFilterLFODepth _ | .psetFilterAttack _ => true
  | .psetFilterDecay _ | .psetFilterSustain _ | .psetFilterRelease _ | .psetFilterEnvDepth _ => true
  | .midiNoteOff _ | .midiNoteOn _ _ | .midiPressure _ | .midiBend _ _ | .midiIgnored07 _ => true
  | .midiIgnoredA | .midiIgnoredC | .midiIgnoredF => true
  | .ngReset | .ngNext => true
  | .envReset _ _ | .envAttack _ _ | .envNext _ _ | .envRelease _ _ | .envIsActive _ _ | .envIsInAttack _ _ => true
  | .oscReset _ _ | .oscNext _ _ | .oscSquare _ _ _ _ _ => true
  | .fltReset _ | .fltUpdate _ _ _ | .fltRender _ _ => true
  | .voiceReset _ | .voiceRender _ _ | .voiceUpdateLfo _ | .voiceUpdatePan _ | .voiceRelease _ => true
  | .synNoteOn _ _ | .synNoteOff _ | .synFindFree | .synCalcPeriod _ _ | .synStartVoice _ _ _ => true
  | .synRestartMono _ _ | .synShiftQ | .synNextQ | .synLegato | .synLfoStep | .synUpdatePeriod _ => true
  | .smSet _ | .smNext | .synSafe _ => true

/-- Well-formed under the configuration in force. -/
def Instr.wellFormed (i : Instr) : Bool := i.wellFormedIn Machine.cfg

end Sys2Proof
end

