-- ==== Sys2Proof/Decode.lean ====
section
/-! DEFINITION. The decoder, total on every port word, and after it the encoder, both from the tables of
30_encoding.md (R81 to R91). No command word is rejected (R87); an unassigned micro-operation select code is. The
controller numbers of R85 are fields of the configuration (00_scope.md R8), so both take a configuration; `decode` and
`encode` are those of the configuration in force. -/

namespace Sys2Proof

/-- Why a port word is no instruction. -/
inductive DecodeError where
  /-- The select code names no micro-operation of R91. No host command carries one, so this arises only for a
  directly selected micro-operation (log 11). -/
  | unassignedSelectCode (code : BitVec 8)
  deriving DecidableEq, Repr

/-- PSET by index (R86, R304): the register's row for 0 to 26, PSET itself above (R87). The value is the whole data
word for an `f32` register, its low byte for a `u8` register, its low bit for the `bool` register (R86). -/
def decodePset (idx : BitVec 8) (wdata : Word) : Instr :=
  match idx.toNat with
  | 0 => .psetNoiseMix ⟨wdata⟩
  | 1 => .psetEnvAttack ⟨wdata⟩
  | 2 => .psetEnvDecay ⟨wdata⟩
  | 3 => .psetEnvSustain ⟨wdata⟩
  | 4 => .psetEnvRelease ⟨wdata⟩
  | 5 => .psetOscMix ⟨wdata⟩
  | 6 => .psetDetune ⟨wdata⟩
  | 7 => .psetTune ⟨wdata⟩
  | 8 => .psetNumVoices (wdata.extractLsb' 0 8)
  | 9 => .psetVolumeTrim ⟨wdata⟩
  | 10 => .psetOutputLevel ⟨wdata⟩
  | 11 => .psetVelocitySensitivity ⟨wdata⟩
  | 12 => .psetIgnoreVelocity (wdata.getLsbD 0)
  | 13 => .psetLfoInc ⟨wdata⟩
  | 14 => .psetVibrato ⟨wdata⟩
  | 15 => .psetPwmDepth ⟨wdata⟩
  | 16 => .psetGlideMode (wdata.extractLsb' 0 8)
  | 17 => .psetGlideRate ⟨wdata⟩
  | 18 => .psetGlideBend ⟨wdata⟩
  | 19 => .psetFilterKeyTracking ⟨wdata⟩
  | 20 => .psetFilterQ ⟨wdata⟩
  | 21 => .psetFilterLFODepth ⟨wdata⟩
  | 22 => .psetFilterAttack ⟨wdata⟩
  | 23 => .psetFilterDecay ⟨wdata⟩
  | 24 => .psetFilterSustain ⟨wdata⟩
  | 25 => .psetFilterRelease ⟨wdata⟩
  | 26 => .psetFilterEnvDepth ⟨wdata⟩
  | _ => .pset idx wdata

/-- Control change by controller number (R85). -/
def decodeCcIn (c : Config) (ctl val : BitVec 7) : Instr :=
  if ctl.toNat = c.ccModwheel then .ccModWheel val
  else if ctl.toNat = c.ccSustain then .ccSustain val
  else if ctl.toNat = c.ccFilterPos then .ccFilterPos val
  else if ctl.toNat = c.ccFilterNeg then .ccFilterNeg val
  else if c.ccChannelMode ≤ ctl.toNat then .ccChannelMode (ctl.extractLsb' 0 3)
  else .ccOther ctl val

/-- A MIDI message by status nibble `b0[7:4]` (R83, R84); `d1` and `d2` are the low seven bits of the data bytes and
the channel nibble is ignored. -/
def decodeMidiIn (c : Config) (b0 b1 b2 : BitVec 8) : Instr :=
  let d1 : BitVec 7 := b1.extractLsb' 0 7
  let d2 : BitVec 7 := b2.extractLsb' 0 7
  match (b0.extractLsb' 4 4).toNat with
  | 0x8 => .midiNoteOff d1
  | 0x9 => .midiNoteOn d1 d2
  | 0xA => .midiIgnoredA
  | 0xB => decodeCcIn c d1 d2
  | 0xC => .midiIgnoredC
  | 0xD => .midiPressure d1
  | 0xE => .midiBend d1 d2
  | 0xF => .midiIgnoredF
  | _ => .midiIgnored07 (b0.extractLsb' 4 3)

/-- A command by its opcode `cmd[31:24]` (R81, R82). Every command word decodes (R87). -/
def decodeCommandIn (c : Config) (cmd wdata : Word) : Instr :=
  match (cmd.extractLsb' 24 8).toNat with
  | 0x00 => .nop
  | 0x01 => .reset
  | 0x02 => .alloc (cmd.extractLsb' 0 24) ⟨wdata⟩
  | 0x03 => .dealloc
  | 0x04 => decodePset (cmd.extractLsb' 0 8) wdata
  | 0x05 => decodeMidiIn c (cmd.extractLsb' 16 8) (cmd.extractLsb' 8 8) (cmd.extractLsb' 0 8)
  | 0x06 => .render (cmd.getLsbD 23) (cmd.extractLsb' 0 23)
  | 0x07 => .reserved07
  | n =>
    if n < 0x10 then .reserved08 (cmd.extractLsb' 24 3)
    else if n < 0x20 then .reserved10 (cmd.extractLsb' 24 4)
    else if n < 0x40 then .reserved20 (cmd.extractLsb' 24 5)
    else if n < 0x80 then .reserved40 (cmd.extractLsb' 24 6)
    else .reserved80 (cmd.extractLsb' 24 7)

/-- The voice a three-bit field names (R28). -/
def voiceOf (b : BitVec 3) : VoiceIx := b.toFin

/-- `sel[2:0]`: the voice (log 11). -/
def SelectOperands.voice (o : SelectOperands) : VoiceIx := voiceOf (o.sel.extractLsb' 0 3)

/-- `sel[3]`: which envelope of the voice (log 11). -/
def SelectOperands.env (o : SelectOperands) : EnvSel := if o.sel.getLsbD 3 then .filt else .amp

/-- `sel[3]`: which oscillator of the voice (log 11). -/
def SelectOperands.osc (o : SelectOperands) : OscSel := if o.sel.getLsbD 3 then .two else .one

/-- `sel[6:4]`: the voice of OSC.SQUARE's other oscillator (log 11). -/
def SelectOperands.otherVoice (o : SelectOperands) : VoiceIx := voiceOf (o.sel.extractLsb' 4 3)

/-- `sel[7]`: which oscillator of that voice (log 11). -/
def SelectOperands.otherOsc (o : SelectOperands) : OscSel := if o.sel.getLsbD 7 then .two else .one

/-- `sel[14:8]`: the note (log 11). -/
def SelectOperands.note (o : SelectOperands) : BitVec 7 := o.sel.extractLsb' 8 7

/-- `sel[22:16]`: the velocity (log 11). -/
def SelectOperands.vel (o : SelectOperands) : BitVec 7 := o.sel.extractLsb' 16 7

/-- `sel[23:16]`: the signed velocity of SYN.RESTARTMONO (log 11). -/
def SelectOperands.signedVel (o : SelectOperands) : BitVec 8 := o.sel.extractLsb' 16 8

/-- A micro-operation by its select code (R91). -/
def decodeSelect (code : BitVec 8) (o : SelectOperands) : Except DecodeError Instr :=
  match code.toNat with
  | 0x10 => .ok .ngReset
  | 0x11 => .ok .ngNext
  | 0x20 => .ok (.envReset o.voice o.env)
  | 0x21 => .ok (.envAttack o.voice o.env)
  | 0x22 => .ok (.envNext o.voice o.env)
  | 0x23 => .ok (.envRelease o.voice o.env)
  | 0x24 => .ok (.envIsActive o.voice o.env)
  | 0x25 => .ok (.envIsInAttack o.voice o.env)
  | 0x30 => .ok (.oscReset o.voice o.osc)
  | 0x31 => .ok (.oscNext o.voice o.osc)
  | 0x32 => .ok (.oscSquare o.voice o.osc o.otherVoice o.otherOsc ⟨o.x⟩)
  | 0x40 => .ok (.fltReset o.voice)
  | 0x41 => .ok (.fltUpdate o.voice ⟨o.x⟩ ⟨o.y⟩)
  | 0x42 => .ok (.fltRender o.voice ⟨o.x⟩)
  | 0x50 => .ok (.voiceReset o.voice)
  | 0x51 => .ok (.voiceRender o.voice ⟨o.x⟩)
  | 0x52 => .ok (.voiceUpdateLfo o.voice)
  | 0x53 => .ok (.voiceUpdatePan o.voice)
  | 0x54 => .ok (.voiceRelease o.voice)
  | 0x60 => .ok (.synNoteOn o.note o.vel)
  | 0x61 => .ok (.synNoteOff o.note)
  | 0x62 => .ok .synFindFree
  | 0x63 => .ok (.synCalcPeriod o.voice o.note)
  | 0x64 => .ok (.synStartVoice o.voice o.note o.vel)
  | 0x65 => .ok (.synRestartMono o.note o.signedVel)
  | 0x66 => .ok .synShiftQ
  | 0x67 => .ok .synNextQ
  | 0x68 => .ok .synLegato
  | 0x69 => .ok .synLfoStep
  | 0x6A => .ok (.synUpdatePeriod o.voice)
  | 0x6B => .ok (.smSet ⟨o.x⟩)
  | 0x6C => .ok .smNext
  | 0x6D => .ok (.synSafe ⟨o.x⟩)
  | _ => .error (.unassignedSelectCode code)

/-- What stands at the port, decoded. -/
def decodeIn (c : Config) (w : PortWord) : Except DecodeError Instr :=
  match w with
  | .command cmd wdata => .ok (decodeCommandIn c cmd wdata)
  | .select code operands => decodeSelect code operands

/-- A control change under the configuration in force. -/
def decodeCc (ctl val : BitVec 7) : Instr := decodeCcIn Machine.cfg ctl val

/-- A MIDI message under the configuration in force. -/
def decodeMidi (b0 b1 b2 : BitVec 8) : Instr := decodeMidiIn Machine.cfg b0 b1 b2

/-- A command under the configuration in force. -/
def decodeCommand (cmd wdata : Word) : Instr := decodeCommandIn Machine.cfg cmd wdata

/-- The decoder of the configuration in force. -/
def decode (w : PortWord) : Except DecodeError Instr := decodeIn Machine.cfg w

/-- The port word whose bits are `w`, numbered as the opcode table numbers them: a row of eight bits is a select code
and its operand lines are zero; a row of 32 bits is a command word and bits 63..32 are its data word. -/
def portWordOfBits (nbits w : Nat) : PortWord :=
  if nbits ≤ 8 then .select (BitVec.ofNat 8 w) ⟨0, 0, 0⟩
  else .command (BitVec.ofNat 32 w) (BitVec.ofNat 32 (w / 2 ^ 32))

/-- The instruction the decoder reads from a table row's word. -/
def decodeTableWord (nbits w : Nat) : Option Instr :=
  match decode (portWordOfBits nbits w) with
  | .ok i => some i
  | .error _ => none

/-! ## The encoder -/

/-- A command with opcode `op`, immediate `imm` (R81) and data word. -/
def commandWord (op : BitVec 8) (imm : BitVec 24) (wdata : Word) : PortWord := .command (op ++ imm) wdata

/-- Format P (R82): `imm24[7:0]` is the register's index, the ignored bits are zero. -/
def psetWord (idx : BitVec 8) (wdata : Word) : PortWord := commandWord 0x04 (0#16 ++ idx) wdata

/-- Format M (R83) on channel 0 with data bytes whose top bits are zero. -/
def midiWord (status : BitVec 4) (d1 d2 : BitVec 7) : PortWord :=
  commandWord 0x05 ((status ++ 0#4) ++ ((0#1 ++ d1) ++ (0#1 ++ d2))) 0

/-- A control change of controller number `n` (R85). -/
def ccWord (n : Nat) (val : BitVec 7) : PortWord := midiWord 0xB (BitVec.ofNat 7 n) val

/-- The three-bit field that names a voice. -/
def voiceBits (v : VoiceIx) : BitVec 3 := BitVec.ofFin v

/-- The bit that names an envelope. -/
def envBit (e : EnvSel) : BitVec 1 :=
  match e with
  | .amp => 0
  | .filt => 1

/-- The bit that names an oscillator. -/
def oscBit (o : OscSel) : BitVec 1 :=
  match o with
  | .one => 0
  | .two => 1

/-- The first operand line from its fields, high to low (log 11). -/
def selLine (vel note : BitVec 8) (otherOsc : BitVec 1) (otherVoice : BitVec 3) (set : BitVec 1) (voice : BitVec 3) :
    Word :=
  0#8 ++ (vel ++ (note ++ (otherOsc ++ (otherVoice ++ (set ++ voice)))))

/-- A select code with a voice and a register set of it. -/
def setWord (code : BitVec 8) (v : VoiceIx) (set : BitVec 1) (x y : F32) : PortWord :=
  .select code ⟨selLine 0 0 0 0 set (voiceBits v), x.bits, y.bits⟩

/-- A select code with a voice, a note and a velocity. -/
def noteWord (code : BitVec 8) (v : VoiceIx) (note : BitVec 7) (vel : BitVec 8) : PortWord :=
  .select code ⟨selLine vel (0#1 ++ note) 0 0 0 (voiceBits v), 0, 0⟩

/-- The `f32` zero that stands on an unused operand line. -/
def unusedLine : F32 := ⟨0⟩

/-- The words of an instruction. Ignored bits are zero (log 13). The umbrella rows MIDI and MIDI.CC keep the bytes
they carry. -/
def encodeIn (c : Config) (i : Instr) : PortWord :=
  match i with
  | .nop => commandWord 0x00 0 0
  | .reset => commandWord 0x01 0 0
  | .alloc blockSize rate => commandWord 0x02 blockSize rate.bits
  | .dealloc => commandWord 0x03 0 0
  | .pset idx wdata => psetWord idx wdata
  | .midi b0 b1 b2 => commandWord 0x05 (b0 ++ (b1 ++ b2)) 0
  | .render stereo n => commandWord 0x06 (BitVec.ofBool stereo ++ n) 0
  | .reserved07 => commandWord 0x07 0 0
  | .reserved08 low => commandWord (0b00001#5 ++ low) 0 0
  | .reserved10 low => commandWord (0b0001#4 ++ low) 0 0
  | .reserved20 low => commandWord (0b001#3 ++ low) 0 0
  | .reserved40 low => commandWord (0b01#2 ++ low) 0 0
  | .reserved80 low => commandWord (0b1#1 ++ low) 0 0
  | .psetNoiseMix x => psetWord 0 x.bits
  | .psetEnvAttack x => psetWord 1 x.bits
  | .psetEnvDecay x => psetWord 2 x.bits
  | .psetEnvSustain x => psetWord 3 x.bits
  | .psetEnvRelease x => psetWord 4 x.bits
  | .psetOscMix x => psetWord 5 x.bits
  | .psetDetune x => psetWord 6 x.bits
  | .psetTune x => psetWord 7 x.bits
  | .psetNumVoices x => psetWord 8 (0#24 ++ x)
  | .psetVolumeTrim x => psetWord 9 x.bits
  | .psetOutputLevel x => psetWord 10 x.bits
  | .psetVelocitySensitivity x => psetWord 11 x.bits
  | .psetIgnoreVelocity x => psetWord 12 (0#31 ++ BitVec.ofBool x)
  | .psetLfoInc x => psetWord 13 x.bits
  | .psetVibrato x => psetWord 14 x.bits
  | .psetPwmDepth x => psetWord 15 x.bits
  | .psetGlideMode x => psetWord 16 (0#24 ++ x)
  | .psetGlideRate x => psetWord 17 x.bits
  | .psetGlideBend x => psetWord 18 x.bits
  | .psetFilterKeyTracking x => psetWord 19 x.bits
  | .psetFilterQ x => psetWord 20 x.bits
  | .psetFilterLFODepth x => psetWord 21 x.bits
  | .psetFilterAttack x => psetWord 22 x.bits
  | .psetFilterDecay x => psetWord 23 x.bits
  | .psetFilterSustain x => psetWord 24 x.bits
  | .psetFilterRelease x => psetWord 25 x.bits
  | .psetFilterEnvDepth x => psetWord 26 x.bits
  | .midiNoteOff note => midiWord 0x8 note 0
  | .midiNoteOn note vel => midiWord 0x9 note vel
  | .midiCc ctl val => midiWord 0xB ctl val
  | .midiPressure val => midiWord 0xD val 0
  | .midiBend d1 d2 => midiWord 0xE d1 d2
  | .midiIgnored07 status => midiWord (0#1 ++ status) 0 0
  | .midiIgnoredA => midiWord 0xA 0 0
  | .midiIgnoredC => midiWord 0xC 0 0
  | .midiIgnoredF => midiWord 0xF 0 0
  | .ccModWheel val => ccWord c.ccModwheel val
  | .ccSustain val => ccWord c.ccSustain val
  | .ccFilterPos val => ccWord c.ccFilterPos val
  | .ccFilterNeg val => ccWord c.ccFilterNeg val
  | .ccChannelMode low => midiWord 0xB (0b1111#4 ++ low) 0
  | .ccOther ctl val => midiWord 0xB ctl val
  | .ngReset => .select 0x10 ⟨0, 0, 0⟩
  | .ngNext => .select 0x11 ⟨0, 0, 0⟩
  | .envReset v e => setWord 0x20 v (envBit e) unusedLine unusedLine
  | .envAttack v e => setWord 0x21 v (envBit e) unusedLine unusedLine
  | .envNext v e => setWord 0x22 v (envBit e) unusedLine unusedLine
  | .envRelease v e => setWord 0x23 v (envBit e) unusedLine unusedLine
  | .envIsActive v e => setWord 0x24 v (envBit e) unusedLine unusedLine
  | .envIsInAttack v e => setWord 0x25 v (envBit e) unusedLine unusedLine
  | .oscReset v o => setWord 0x30 v (oscBit o) unusedLine unusedLine
  | .oscNext v o => setWord 0x31 v (oscBit o) unusedLine unusedLine
  | .oscSquare v o ov oo p =>
    .select 0x32 ⟨selLine 0 0 (oscBit oo) (voiceBits ov) (oscBit o) (voiceBits v), p.bits, 0⟩
  | .fltReset v => setWord 0x40 v 0 unusedLine unusedLine
  | .fltUpdate v cutoffHz q => setWord 0x41 v 0 cutoffHz q
  | .fltRender v x => setWord 0x42 v 0 x unusedLine
  | .voiceReset v => setWord 0x50 v 0 unusedLine unusedLine
  | .voiceRender v x => setWord 0x51 v 0 x unusedLine
  | .voiceUpdateLfo v => setWord 0x52 v 0 unusedLine unusedLine
  | .voiceUpdatePan v => setWord 0x53 v 0 unusedLine unusedLine
  | .voiceRelease v => setWord 0x54 v 0 unusedLine unusedLine
  | .synNoteOn note vel => noteWord 0x60 0 note (0#1 ++ vel)
  | .synNoteOff note => noteWord 0x61 0 note 0
  | .synFindFree => .select 0x62 ⟨0, 0, 0⟩
  | .synCalcPeriod v note => noteWord 0x63 v note 0
  | .synStartVoice v note vel => noteWord 0x64 v note (0#1 ++ vel)
  | .synRestartMono note vel => noteWord 0x65 0 note vel
  | .synShiftQ => .select 0x66 ⟨0, 0, 0⟩
  | .synNextQ => .select 0x67 ⟨0, 0, 0⟩
  | .synLegato => .select 0x68 ⟨0, 0, 0⟩
  | .synLfoStep => .select 0x69 ⟨0, 0, 0⟩
  | .synUpdatePeriod v => setWord 0x6A v 0 unusedLine unusedLine
  | .smSet x => setWord 0x6B 0 0 x unusedLine
  | .smNext => .select 0x6C ⟨0, 0, 0⟩
  | .synSafe x => setWord 0x6D 0 0 x unusedLine

/-- The encoder of the configuration in force. -/
def encode (i : Instr) : PortWord := encodeIn Machine.cfg i

end Sys2Proof
end

