-- ==== Sys2Proof/Machine/Lpf4.lean ====
section
/-! DEFINITION. The filter primitive LPF4 as a configuration structure (spec 43_filter.md R163) with its reference
realisations, the ladder A (R165 to R168) and the biquad cascade B (R170 to R173). -/

namespace Sys2Proof.Machine

/-- The coefficient registers of a filter, whose number and meaning belong to the realisation (10_state.md R25). -/
inductive Coef where
  /-- Realisation A: stage gain and feedback gain (R165). -/
  | ladder (g k : F32)
  /-- Realisation B: the section coefficients, shared by both sections (R170). -/
  | biquad (b0 b1 b2 a1 a2 : F32)
  /-- A user-supplied structure (R176). -/
  | user (regs : List F32)
  deriving DecidableEq, Repr

/-- `LPF4.zero`: all four pole registers `+0.0` (R163, R168, R173). -/
def polesZero : Poles := ⟨F32.zero, F32.zero, F32.zero, F32.zero⟩

/-- `LPF4.coef` of realisation A (R166). -/
def ladderCoef (c : Config) (fs cutoffHz res : F32) : Coef :=
  let w := (c.twoPi.mul cutoffHz).div fs
  .ladder (F32.one.sub (c.exp w.neg)) (F32.four.mul res)

/-- `LPF4.coef` of realisation B (R171). -/
def biquadCoef (c : Config) (fs cutoffHz res : F32) : Coef :=
  let w0 := (c.twoPi.mul cutoffHz).div fs
  let cs := c.cos w0
  let sn := c.sin w0
  let q := c.bqQMin.add (res.mul (c.bqQMax.sub c.bqQMin))
  let al := sn.div (F32.two.mul q)
  let a0 := F32.one.add al
  let omc := F32.one.sub cs
  let b0 := (omc.div F32.two).div a0
  .biquad b0 (omc.div a0) b0 ((F32.two.neg.mul cs).div a0) ((F32.one.sub al).div a0)

/-- `LPF4.coef` of the realisation in force (R163, `LPF4_REALISATION`). -/
def lpf4Coef (c : Config) (fs cutoffHz res : F32) : Coef :=
  match c.lpf4Realisation with
  | .ladder => ladderCoef c fs cutoffHz res
  | .biquad => biquadCoef c fs cutoffHz res
  | .user => .user (c.userCoef fs cutoffHz res)

/-- One stage of the ladder: `y + g * (x - y)` (R167). -/
def ladderStage (g y x : F32) : F32 := y.add (g.mul (x.sub y))

/-- `LPF4.step` of realisation A (R167): the feedback takes the last stage of the previous call, and each stage takes
the stage before it as just written. -/
def ladderStep (g k : F32) (p : Poles) (x : F32) : Poles × F32 :=
  let u := x.sub (k.mul p.p3)
  let y0 := ladderStage g p.p0 u
  let y1 := ladderStage g p.p1 y0
  let y2 := ladderStage g p.p2 y1
  let y3 := ladderStage g p.p3 y2
  (⟨y0, y1, y2, y3⟩, y3)

/-- One section of realisation B in transposed direct form II (R172): the two new section registers and the output. -/
def biquadSection (b0 b1 b2 a1 a2 : F32) (z0 z1 x : F32) : F32 × F32 × F32 :=
  let y := (b0.mul x).add z0
  (((b1.mul x).sub (a1.mul y)).add z1, (b2.mul x).sub (a2.mul y), y)

/-- `LPF4.step` of realisation B (R172). -/
def biquadStep (b0 b1 b2 a1 a2 : F32) (p : Poles) (x : F32) : Poles × F32 :=
  let s1 := biquadSection b0 b1 b2 a1 a2 p.p0 p.p1 x
  let s2 := biquadSection b0 b1 b2 a1 a2 p.p2 p.p3 s1.2.2
  (⟨s1.1, s1.2.1, s2.1, s2.2.1⟩, s2.2.2)

/-- `LPF4.step` of a user structure (R176), with the law `LPF4_silent` (R163) imposed on whatever step the configuration
gives: from cleared poles and on a zero the poles stay cleared and a zero comes out, its sign free (log 3). -/
def userStepSilent (c : Config) (regs : List F32) (p : Poles) (x : F32) : Poles × F32 :=
  let r := c.userStep regs p x
  if p = polesZero && x.isZero then (polesZero, F32.ofSignMag r.2.sign 0) else r

/-- `LPF4.step` (R163): the realisation is the one the coefficient registers belong to. -/
def lpf4Step (c : Config) (coef : Coef) (p : Poles) (x : F32) : Poles × F32 :=
  match coef with
  | .ladder g k => ladderStep g k p x
  | .biquad b0 b1 b2 a1 a2 => biquadStep b0 b1 b2 a1 a2 p x
  | .user regs => userStepSilent c regs p x

end Sys2Proof.Machine
end

