-- ==== Sys2Proof/Machine/State.lean ====
section
/-! DEFINITION. The state of the engine (spec 10_state.md R20 to R46) as plain data, the reasons a step can stop, and
the power-on state (R46, 70_reset_and_hazards.md R350). -/

namespace Sys2Proof.Machine

/-- An Envelope register set (R22). -/
structure Envelope where
  level : F32
  target : F32
  multiplier : F32
  attackMul : F32
  decayMul : F32
  sustainLevel : F32
  releaseMul : F32
  deriving DecidableEq, Repr

/-- An Oscillator register set (R24): three knobs and seven internal registers. -/
structure Oscillator where
  period : F32
  amplitude : F32
  modulation : F32
  phase : F32
  phaseMax : F32
  inc : F32
  sin0 : F32
  sin1 : F32
  dsin : F32
  dc : F32
  deriving DecidableEq, Repr

/-- A Filter register set (R25). -/
structure Filter where
  cutoff : F32
  res : F32
  coef : Coef
  poles : Poles
  deriving DecidableEq, Repr

/-- A Voice register bank (R26). `note` is the `i8` identity: 0 free, SUSTAIN held by the pedal, 1 to 127 a note (R27). -/
structure Voice where
  note : BitVec 8
  saw : F32
  period : F32
  target : F32
  glideRate : F32
  panLeft : F32
  panRight : F32
  cutoff : F32
  filterMod : F32
  filterQ : F32
  pitchBend : F32
  filterEnvDepth : F32
  env : Envelope
  fenv : Envelope
  osc1 : Oscillator
  osc2 : Oscillator
  filter : Filter
  deriving DecidableEq, Repr

/-- The output-level smoother (R39). -/
structure Smoother where
  cur : F32
  tgt : F32
  step : F32
  count : Nat
  len : Nat
  deriving DecidableEq, Repr

/-- A parameter register: its value, and whether a PSET has written it. R41: a register no PSET has written holds no
value, so `value` is meaningful only under `written` (log 6). -/
structure Param (α : Type) where
  value : α
  written : Bool
  deriving DecidableEq, Repr

/-- The parameter file `P0` to `P26` (R40). -/
structure Params where
  noiseMix : Param F32
  envAttack : Param F32
  envDecay : Param F32
  envSustain : Param F32
  envRelease : Param F32
  oscMix : Param F32
  detune : Param F32
  tune : Param F32
  numVoices : Param (BitVec 8)
  volumeTrim : Param F32
  outputLevel : Param F32
  velocitySensitivity : Param F32
  ignoreVelocity : Param Bool
  lfoInc : Param F32
  vibrato : Param F32
  pwmDepth : Param F32
  glideMode : Param (BitVec 8)
  glideRate : Param F32
  glideBend : Param F32
  filterKeyTracking : Param F32
  filterQ : Param F32
  filterLFODepth : Param F32
  filterAttack : Param F32
  filterDecay : Param F32
  filterSustain : Param F32
  filterRelease : Param F32
  filterEnvDepth : Param F32
  deriving DecidableEq, Repr

/-- An output buffer (20_memory.md R60): the words written so far as pairs of address and word, addresses strictly
rising. A word that is not listed has never been written and holds no value (R61). -/
abbrev OutBuf := List (Nat × F32)

/-- What a directly selected micro-operation returned (the model's own, log 11). -/
inductive MicroResult where
  | none
  | f32 (x : F32)
  | bool (b : Bool)
  | voice (v : VoiceIx)
  | note (n : BitVec 8)
  deriving DecidableEq, Repr

/-- The state of the engine. `port` and `result` are the model's own (logs 10 and 11); every other field is a piece of
state of 10_state.md R20. -/
structure State where
  ng : Word
  voices : Bank Voice
  sampleRate : F32
  allocated : Bool
  lfo : F32
  lfoStep : Int
  filterZip : F32
  lastNote : BitVec 8
  pitchBend : F32
  modWheel : F32
  pressure : F32
  filterCtl : F32
  sustainPedal : Bool
  sm : Smoother
  p : Params
  outL : OutBuf
  outR : OutBuf
  port : List PortWord
  result : MicroResult
  deriving DecidableEq, Repr

/-- The engine raises nothing: no command and no micro-operation has a trap (60_exceptions.md R320, R331), so there is
no fault, and no constructor. -/
inductive Fault where
  deriving DecidableEq, Repr

/-- What a `ParamOutOfRange` refusal is about (60_exceptions.md R326). -/
inductive RangeSubject where
  /-- A parameter register the command reads, cases (a), (b), (d), (e), (f). -/
  | param (p : ParamId)
  /-- The sample rate, case (c) and 00_scope.md R16 (e). -/
  | sampleRate
  /-- The doubling loop of SYN.CALCPERIOD does not end, case (a) and 47_voice_allocation.md R274. -/
  | periodLoop
  deriving DecidableEq, Repr

/-- Why a command has no meaning. The classes are those of 60_exceptions.md R322 and, where no class is named there, the
model's own; each is safe: the model stops where
the hardware, which detects nothing, goes on with behaviour the source calls undefined or caller-enforced. -/
inductive Refusal where
  /-- An instruction with no meaning yet, raised by an arm of exec only. Safe. No arm uses it. -/
  | notModelled (mnemonic : String)
  /-- `NotAllocated` (R323): RENDER while `S.allocated` is false. Safe. -/
  | notAllocated
  /-- `UnwrittenParam` (R324): a rule would read a parameter register no PSET has written. Raised by every instruction
  whose rule reads parameters. Safe. -/
  | unwrittenParam (p : ParamId)
  /-- `ParamOutOfRange` (R326): a value outside its legal range would be read. Raised by every instruction whose rule
  reads parameters, by ALLOC and by RESET. Safe. -/
  | paramOutOfRange (what : RangeSubject)
  /-- A block longer than OUT_CAPACITY, so that words R60 does not give the buffers would be written. The spec states the
  bound (30_encoding.md R86) and names no class for a block above it: the model's own (log 23). Raised by RENDER under a
  configuration whose capacity is below the 23-bit operand's range; never under the one in force. Safe. -/
  | blockBeyondCapacity
  /-- The decoder found no micro-operation behind a select code (30_encoding.md R91). Raised by step. Safe: no host
  command carries a select code. -/
  | unassignedSelectCode (code : BitVec 8)
  deriving DecidableEq, Repr

/-- Every register of an envelope at power-on (R46). -/
def Envelope.powerOn : Envelope :=
  ⟨F32.zero, F32.zero, F32.zero, F32.zero, F32.zero, F32.zero, F32.zero⟩

/-- Every register of an oscillator at power-on (R46): the amplitude and modulation knobs are 1.0. -/
def Oscillator.powerOn : Oscillator :=
  ⟨F32.zero, F32.one, F32.one, F32.zero, F32.zero, F32.zero, F32.zero, F32.zero, F32.zero, F32.zero⟩

/-- A filter at power-on (R46, R175). -/
def Filter.powerOn (c : Config) : Filter :=
  ⟨c.fltPowerOnCutoff, F32.zero, lpf4Coef c c.fsPowerOn c.fltPowerOnCutoff F32.zero, polesZero⟩

/-- A voice at power-on (R46). -/
def Voice.powerOn (c : Config) : Voice where
  note := 0
  saw := F32.zero
  period := F32.zero
  target := F32.zero
  glideRate := F32.zero
  panLeft := c.panReset
  panRight := c.panReset
  cutoff := F32.zero
  filterMod := F32.zero
  filterQ := F32.zero
  pitchBend := F32.zero
  filterEnvDepth := F32.zero
  env := Envelope.powerOn
  fenv := Envelope.powerOn
  osc1 := Oscillator.powerOn
  osc2 := Oscillator.powerOn
  filter := Filter.powerOn c

/-- An `f32` parameter register no PSET has written (R41; the value under the unset mark is log 6). -/
def unwrittenF32 : Param F32 := ⟨F32.zero, false⟩

/-- The parameter file at power-on: no register holds a value (R41, R46). -/
def Params.powerOn : Params where
  noiseMix := unwrittenF32
  envAttack := unwrittenF32
  envDecay := unwrittenF32
  envSustain := unwrittenF32
  envRelease := unwrittenF32
  oscMix := unwrittenF32
  detune := unwrittenF32
  tune := unwrittenF32
  numVoices := ⟨0, false⟩
  volumeTrim := unwrittenF32
  outputLevel := unwrittenF32
  velocitySensitivity := unwrittenF32
  ignoreVelocity := ⟨false, false⟩
  lfoInc := unwrittenF32
  vibrato := unwrittenF32
  pwmDepth := unwrittenF32
  glideMode := ⟨0, false⟩
  glideRate := unwrittenF32
  glideBend := unwrittenF32
  filterKeyTracking := unwrittenF32
  filterQ := unwrittenF32
  filterLFODepth := unwrittenF32
  filterAttack := unwrittenF32
  filterDecay := unwrittenF32
  filterSustain := unwrittenF32
  filterRelease := unwrittenF32
  filterEnvDepth := unwrittenF32

/-- The power-on state of a configuration (R46, R350): the state before the first command. -/
def State.resetIn (c : Config) : State where
  ng := c.noiseSeed
  voices := Bank.all (Voice.powerOn c)
  sampleRate := c.fsPowerOn
  allocated := false
  lfo := F32.zero
  lfoStep := 0
  filterZip := F32.zero
  lastNote := 0
  pitchBend := F32.one
  modWheel := F32.zero
  pressure := F32.zero
  filterCtl := F32.zero
  sustainPedal := false
  sm := ⟨F32.zero, F32.zero, F32.zero, 0, 0⟩
  p := Params.powerOn
  outL := []
  outR := []
  port := []
  result := .none

/-- The power-on state (R46, R350) of the configuration in force. -/
def State.reset : State := State.resetIn cfg

end Sys2Proof.Machine
end

