-- ==== Sys2Proof/Machine/Ops.lean ====
section
/-! DEFINITION. The named operations over the state: the output buffers (spec 20_memory.md R60, R61), the register
banks, the parameter file with its two precondition checks (60_exceptions.md R322 to R326), and how a command that
breaks a precondition is refused. Taking an exception is not among them: the engine has no exception, no saved pc or
status, no mode and no vector (R320, R331 to R334), and nothing to return from (R332). -/

namespace Sys2Proof.Machine

/-! ## Output buffers -/

/-- The word at address `k` if a RENDER has written it. -/
def outWord? (b : OutBuf) (k : Nat) : Option F32 :=
  match b with
  | [] => none
  | (a, x) :: t => if a = k then some x else outWord? t k

/-- `OutWrite(buf, k, x)` (R61). -/
def outWrite (b : OutBuf) (k : Nat) (x : F32) : OutBuf :=
  match b with
  | [] => [(k, x)]
  | (a, y) :: t => if k < a then (k, x) :: (a, y) :: t else if k = a then (k, x) :: t else (a, y) :: outWrite t k x

/-- `OutRead(buf, k)` (R61): a word no RENDER has written is a draw (log 14). -/
def outRead (id : OutId) (b : OutBuf) (k : Nat) : F32 := (outWord? b k).getD (Config.unwrittenWord id k)

/-- The canonical form of a buffer under a configuration: addresses strictly rising, all below OUT_CAPACITY (R60). -/
abbrev Memory.wfIn (c : Config) (b : OutBuf) : Prop :=
  (b.map Prod.fst).Pairwise (· < ·) ∧ ∀ a ∈ b.map Prod.fst, a < c.outCapacity

/-- The canonical form under the configuration in force. -/
abbrev Memory.wf (b : OutBuf) : Prop := Memory.wfIn cfg b

/-! ## Register banks -/

/-- Bank `v` replaced. -/
def State.setVoice (s : State) (v : VoiceIx) (x : Voice) : State := { s with voices := s.voices.set v x }

/-- `V[v]`. -/
def State.voice (s : State) (v : VoiceIx) : Voice := s.voices.get v

/-- Every bank through `f`: a loop `for v in 0 .. 7` whose body touches `V[v]` alone. -/
def State.mapVoices (f : Voice → Voice) (s : State) : State := { s with voices := s.voices.map f }

/-- One of a voice's envelopes. -/
def Voice.envOf (v : Voice) (e : EnvSel) : Envelope :=
  match e with
  | .amp => v.env
  | .filt => v.fenv

/-- One of a voice's envelopes replaced. -/
def Voice.setEnv (v : Voice) (e : EnvSel) (x : Envelope) : Voice :=
  match e with
  | .amp => { v with env := x }
  | .filt => { v with fenv := x }

/-- One of a voice's oscillators. -/
def Voice.oscOf (v : Voice) (o : OscSel) : Oscillator :=
  match o with
  | .one => v.osc1
  | .two => v.osc2

/-- One of a voice's oscillators replaced. -/
def Voice.setOsc (v : Voice) (o : OscSel) (x : Oscillator) : Voice :=
  match o with
  | .one => { v with osc1 := x }
  | .two => { v with osc2 := x }

/-- The result line of a directly selected micro-operation (log 11). -/
def State.setResult (s : State) (r : MicroResult) : State := { s with result := r }

/-! ## Preconditions on the parameter file -/

/-- Whether a PSET has written the register (R41). -/
def Params.written (p : Params) (id : ParamId) : Bool :=
  match id with
  | .noiseMix => p.noiseMix.written
  | .envAttack => p.envAttack.written
  | .envDecay => p.envDecay.written
  | .envSustain => p.envSustain.written
  | .envRelease => p.envRelease.written
  | .oscMix => p.oscMix.written
  | .detune => p.detune.written
  | .tune => p.tune.written
  | .numVoices => p.numVoices.written
  | .volumeTrim => p.volumeTrim.written
  | .outputLevel => p.outputLevel.written
  | .velocitySensitivity => p.velocitySensitivity.written
  | .ignoreVelocity => p.ignoreVelocity.written
  | .lfoInc => p.lfoInc.written
  | .vibrato => p.vibrato.written
  | .pwmDepth => p.pwmDepth.written
  | .glideMode => p.glideMode.written
  | .glideRate => p.glideRate.written
  | .glideBend => p.glideBend.written
  | .filterKeyTracking => p.filterKeyTracking.written
  | .filterQ => p.filterQ.written
  | .filterLFODepth => p.filterLFODepth.written
  | .filterAttack => p.filterAttack.written
  | .filterDecay => p.filterDecay.written
  | .filterSustain => p.filterSustain.written
  | .filterRelease => p.filterRelease.written
  | .filterEnvDepth => p.filterEnvDepth.written

/-- R326 (a): `tune` is positive, normal and finite. -/
def tuneInRange (x : F32) : Bool := x.isNormal && x.gt F32.zero

/-- R326 (a): `detune` is positive and finite. -/
def detuneInRange (x : F32) : Bool := x.isFinite && x.gt F32.zero

/-- R326 (b): an envelope multiplier lies in `[0, 1)`. -/
def multiplierInRange (x : F32) : Bool := x.ge F32.zero && x.lt F32.one

/-- R326 (b): a sustain level lies in `[0, 1]`. -/
def sustainInRange (x : F32) : Bool := x.ge F32.zero && x.le F32.one

/-- R326 (d): `glideRate` lies in `(0, 1]`. -/
def glideRateInRange (x : F32) : Bool := x.gt F32.zero && x.le F32.one

/-- R326 (e): `lfoInc` lies in `[0, 2 pi)`. -/
def lfoIncInRange (c : Config) (x : F32) : Bool := x.ge F32.zero && x.lt c.twoPi

/-- R326 (c): the sample rate is finite and positive and `OUT_RAMP_SECONDS * sampleRate` is below 2^31 (00_scope.md
R16 (e)); `0x4F000000` is 2^31. -/
def sampleRateInRange (c : Config) (x : F32) : Bool :=
  x.isFinite && x.gt F32.zero && (c.outRampSeconds.mul x).lt ⟨0x4F000000⟩

/-- Whether a register's value is one R326 lets a rule read; the registers with no range of their own are only asked
to be finite (f). -/
def Params.inRange (c : Config) (p : Params) (id : ParamId) : Bool :=
  match id with
  | .noiseMix => p.noiseMix.value.isFinite
  | .envAttack => multiplierInRange p.envAttack.value
  | .envDecay => multiplierInRange p.envDecay.value
  | .envSustain => sustainInRange p.envSustain.value
  | .envRelease => multiplierInRange p.envRelease.value
  | .oscMix => p.oscMix.value.isFinite
  | .detune => detuneInRange p.detune.value
  | .tune => tuneInRange p.tune.value
  | .numVoices => true
  | .volumeTrim => p.volumeTrim.value.isFinite
  | .outputLevel => p.outputLevel.value.isFinite
  | .velocitySensitivity => p.velocitySensitivity.value.isFinite
  | .ignoreVelocity => true
  | .lfoInc => lfoIncInRange c p.lfoInc.value
  | .vibrato => p.vibrato.value.isFinite
  | .pwmDepth => p.pwmDepth.value.isFinite
  | .glideMode => true
  | .glideRate => glideRateInRange p.glideRate.value
  | .glideBend => p.glideBend.value.isFinite
  | .filterKeyTracking => p.filterKeyTracking.value.isFinite
  | .filterQ => p.filterQ.value.isFinite
  | .filterLFODepth => p.filterLFODepth.value.isFinite
  | .filterAttack => multiplierInRange p.filterAttack.value
  | .filterDecay => multiplierInRange p.filterDecay.value
  | .filterSustain => sustainInRange p.filterSustain.value
  | .filterRelease => multiplierInRange p.filterRelease.value
  | .filterEnvDepth => p.filterEnvDepth.value.isFinite

/-- The preconditions of a command that reads the registers `ids`, in the order of R322: an unwritten register first,
then a value out of range. -/
def checkReads (c : Config) (p : Params) (ids : List ParamId) : Option Refusal :=
  match ids.find? (fun id => !p.written id) with
  | some id => some (.unwrittenParam id)
  | none =>
    match ids.find? (fun id => !p.inRange c id) with
    | some id => some (.paramOutOfRange (.param id))
    | none => none

/-- A command's outcome: refused when a precondition is broken, else its effect, whole (R322; 20_memory.md R64). -/
def guarded (refusal : Option Refusal) (t : State) : Host.Outcome State Fault Refusal :=
  match refusal with
  | some r => .refused r
  | none => .next t

end Sys2Proof.Machine
end

