-- ==== Sys2Proof/Machine/Operands.lean ====
section
/-! DEFINITION. Operand forms (spec 30_encoding.md R83 to R86, 00_scope.md R16): what the fields of an instruction
denote where a rule uses them. The engine has no addressing modes; the fields themselves are cut out by the decoder. -/

namespace Sys2Proof.Machine

/-- A seven-bit note number as the `i8` register `V.note` holds it (10_state.md R27). -/
def noteReg (note : BitVec 7) : BitVec 8 := note.setWidth 8

/-- `bend14 = d1 + 128 * d2` (R86, 46_midi_control.md R243). -/
def bend14 (d1 d2 : BitVec 7) : Nat := d1.toNat + 128 * d2.toNat

/-- `(vel + 64) * (vel + 64)` (R16 (c)), with VEL_B for 64. -/
def velSquare (c : Config) (vel : BitVec 7) : Nat := (vel.toNat + c.velB) * (vel.toNat + c.velB)

/-- `vel - 64` (R16 (c)), with VEL_CENTRE for 64. -/
def velOffset (c : Config) (vel : Int) : Int := vel - c.velCentre

/-- `x * x` of a seven-bit value, exact (R16 (c)). -/
def square7 (x : BitVec 7) : Nat := x.toNat * x.toNat

/-- A PSET of an `f32` or `u8` or `bool` register: the value, and the register counts as written (R304). -/
def writtenParam {α : Type} (x : α) : Param α := ⟨x, true⟩

end Sys2Proof.Machine
end

