-- ==== Sys2Proof/Machine/Flags.lean ====
section
/-! DEFINITION. The flags: two envelope predicates, functions of the registers and not stored bits (spec 10_state.md
R23), and what they make of a voice (R27, R28). The stored flags are `S.sustainPedal` and `S.allocated` (R42). There
are no arithmetic condition codes (R42). -/

namespace Sys2Proof.Machine

/-- ENV.ISACTIVE (41_envelope.md R124): `level > SILENCE`. -/
def isActive (c : Config) (e : Envelope) : Bool := e.level.gt c.silence

/-- ENV.ISINATTACK (41_envelope.md R125): `target >= 2.0`. -/
def isInAttack (c : Config) (e : Envelope) : Bool := e.target.ge c.envAttackTarget

/-- `active(v)` (R28): the amplitude envelope is active. -/
def Voice.active (c : Config) (v : Voice) : Bool := isActive c v.env

/-- `note > 0`, signed (00_scope.md R16 (d)): the voice holds a key. -/
def isHeld (note : BitVec 8) : Bool := (0#8).slt note

/-- SYN.LEGATO (47_voice_allocation.md R275): is a key held, on any voice. -/
def legato (voices : Bank Voice) : Bool := voices.toList.any (fun v => isHeld v.note)

end Sys2Proof.Machine
end

