-- ==== Sys2Proof/Machine/Noise.lean ====
section
/-! DEFINITION. NoiseGenerator (spec 40_noise.md R110, R111). -/

namespace Sys2Proof.Machine

/-- The seed after NG.NEXT: one linear-congruential step, modulo 2^32 (R111). -/
def noiseSeedNext (c : Config) (seed : Word) : Word := seed * c.noiseMul + c.noiseInc

/-- The sample NG.NEXT makes of the new seed (R111). DESIGN CHOICE (log 22): NOISE_BIAS is added, as R111's pseudocode
writes it, where 00_scope.md R16 (b) speaks of bitwise AND and OR; the two are one for the constants in force, and
differ for a configured bias that has a bit in common with the mask. -/
def noiseSample (c : Config) (seed : Word) : F32 :=
  F32.sub ⟨(seed &&& c.noiseMask) + c.noiseBias⟩ c.noiseOffset

/-- NG.RESET (R110). -/
def execNgResetIn (c : Config) (s : State) : Host.Outcome State Fault Refusal := .next { s with ng := c.noiseSeed }

/-- NG.RESET (R110), under the configuration in force. -/
def execNgReset (s : State) : Host.Outcome State Fault Refusal := execNgResetIn cfg s

/-- NG.NEXT (R111). -/
def execNgNextIn (c : Config) (s : State) : Host.Outcome State Fault Refusal :=
  let seed := noiseSeedNext c s.ng
  .next { s with ng := seed, result := .f32 (noiseSample c seed) }

/-- NG.NEXT (R111), under the configuration in force. -/
def execNgNext (s : State) : Host.Outcome State Fault Refusal := execNgNextIn cfg s

end Sys2Proof.Machine
end

