-- ==== Sys2Proof/Machine/Envelope.lean ====
section
/-! DEFINITION. Envelope (spec 41_envelope.md R120 to R125). -/

namespace Sys2Proof.Machine

/-- ENV.RESET (R120): the coefficients are kept. -/
def envReset (e : Envelope) : Envelope :=
  { e with level := F32.zero, target := F32.zero, multiplier := F32.zero }

/-- `SILENCE + SILENCE`, the jump of an attack and of a mono retrigger (R121, 47_voice_allocation.md R277). -/
def silenceTwice (c : Config) : F32 := c.silence.add c.silence

/-- ENV.ATTACK (R121). -/
def envAttack (c : Config) (e : Envelope) : Envelope :=
  { e with level := e.level.add (silenceTwice c), target := c.envAttackTarget, multiplier := e.attackMul }

/-- The level ENV.NEXT computes and returns (R122). -/
def envNextLevel (e : Envelope) : F32 := (e.multiplier.mul (e.level.sub e.target)).add e.target

/-- ENV.NEXT (R122): the value returned is the new `level`. The test uses the new level and the old target. -/
def envNext (c : Config) (e : Envelope) : Envelope :=
  let level := envNextLevel e
  if (level.add e.target).gt c.envSwitchSum then
    { e with level := level, multiplier := e.decayMul, target := e.sustainLevel }
  else { e with level := level }

/-- ENV.RELEASE (R123). -/
def envRelease (e : Envelope) : Envelope := { e with target := F32.zero, multiplier := e.releaseMul }

/-- An envelope of a voice of the state replaced by its image under `f`. -/
def State.onEnv (s : State) (v : VoiceIx) (e : EnvSel) (f : Envelope → Envelope) : State :=
  s.setVoice v ((s.voice v).setEnv e (f ((s.voice v).envOf e)))

/-- ENV.RESET (R120). -/
def execEnvReset (v : VoiceIx) (e : EnvSel) (s : State) : Host.Outcome State Fault Refusal :=
  .next (s.onEnv v e envReset)

/-- ENV.ATTACK (R121). -/
def execEnvAttackIn (c : Config) (v : VoiceIx) (e : EnvSel) (s : State) : Host.Outcome State Fault Refusal :=
  .next (s.onEnv v e (envAttack c))

/-- ENV.ATTACK (R121), under the configuration in force. -/
def execEnvAttack (v : VoiceIx) (e : EnvSel) (s : State) : Host.Outcome State Fault Refusal :=
  execEnvAttackIn cfg v e s

/-- ENV.NEXT (R122). -/
def execEnvNextIn (c : Config) (v : VoiceIx) (e : EnvSel) (s : State) : Host.Outcome State Fault Refusal :=
  .next ((s.onEnv v e (envNext c)).setResult (.f32 (envNextLevel ((s.voice v).envOf e))))

/-- ENV.NEXT (R122), under the configuration in force. -/
def execEnvNext (v : VoiceIx) (e : EnvSel) (s : State) : Host.Outcome State Fault Refusal := execEnvNextIn cfg v e s

/-- ENV.RELEASE (R123). -/
def execEnvRelease (v : VoiceIx) (e : EnvSel) (s : State) : Host.Outcome State Fault Refusal :=
  .next (s.onEnv v e envRelease)

/-- ENV.ISACTIVE (R124). -/
def execEnvIsActiveIn (c : Config) (v : VoiceIx) (e : EnvSel) (s : State) : Host.Outcome State Fault Refusal :=
  .next (s.setResult (.bool (isActive c ((s.voice v).envOf e))))

/-- ENV.ISACTIVE (R124), under the configuration in force. -/
def execEnvIsActive (v : VoiceIx) (e : EnvSel) (s : State) : Host.Outcome State Fault Refusal :=
  execEnvIsActiveIn cfg v e s

/-- ENV.ISINATTACK (R125). -/
def execEnvIsInAttackIn (c : Config) (v : VoiceIx) (e : EnvSel) (s : State) : Host.Outcome State Fault Refusal :=
  .next (s.setResult (.bool (isInAttack c ((s.voice v).envOf e))))

/-- ENV.ISINATTACK (R125), under the configuration in force. -/
def execEnvIsInAttack (v : VoiceIx) (e : EnvSel) (s : State) : Host.Outcome State Fault Refusal :=
  execEnvIsInAttackIn cfg v e s

end Sys2Proof.Machine
end

