-- ==== Sys2Proof/Machine/FilterUnit.lean ====
section
/-! DEFINITION. Filter, the adapter over LPF4 (spec 43_filter.md R160 to R162). -/

namespace Sys2Proof.Machine

/-- FLT.UPDATE (R160). `fs` is `S.sampleRate` (10_state.md R25). -/
def fltUpdate (c : Config) (fs : F32) (f : Filter) (cutoffHz q : F32) : Filter :=
  let res := (q.div c.qDiv).clamp F32.zero F32.one
  { f with cutoff := cutoffHz, res := res, coef := lpf4Coef c fs cutoffHz res }

/-- FLT.RENDER (R161): the filter with its new poles, and the output. -/
def fltRender (c : Config) (f : Filter) (x : F32) : Filter × F32 :=
  let r := lpf4Step c f.coef f.poles x
  ({ f with poles := r.1 }, r.2)

/-- FLT.RESET (R162): only the poles are cleared. -/
def fltReset (f : Filter) : Filter := { f with poles := polesZero }

/-- The filter of a voice of the state replaced by its image under `f`. -/
def State.onFilter (s : State) (v : VoiceIx) (f : Filter → Filter) : State :=
  s.setVoice v { s.voice v with filter := f (s.voice v).filter }

/-- FLT.RESET (R162). -/
def execFltReset (v : VoiceIx) (s : State) : Host.Outcome State Fault Refusal := .next (s.onFilter v fltReset)

/-- FLT.UPDATE (R160). -/
def execFltUpdateIn (c : Config) (v : VoiceIx) (cutoffHz q : F32) (s : State) : Host.Outcome State Fault Refusal :=
  .next (s.onFilter v (fun f => fltUpdate c s.sampleRate f cutoffHz q))

/-- FLT.UPDATE (R160), under the configuration in force. -/
def execFltUpdate (v : VoiceIx) (cutoffHz q : F32) (s : State) : Host.Outcome State Fault Refusal :=
  execFltUpdateIn cfg v cutoffHz q s

/-- FLT.RENDER (R161). -/
def execFltRenderIn (c : Config) (v : VoiceIx) (x : F32) (s : State) : Host.Outcome State Fault Refusal :=
  let r := fltRender c (s.voice v).filter x
  .next ((s.onFilter v (fun _ => r.1)).setResult (.f32 r.2))

/-- FLT.RENDER (R161), under the configuration in force. -/
def execFltRender (v : VoiceIx) (x : F32) (s : State) : Host.Outcome State Fault Refusal := execFltRenderIn cfg v x s

end Sys2Proof.Machine
end

