-- ==== Sys2Proof/Machine/Oscillator.lean ====
section
/-! DEFINITION. Oscillator (spec 42_oscillator.md R140 to R144). The recompute branch is evaluated as written also
where `period * modulation < 6.0` (R146; 60_exceptions.md R325; log 8). -/

namespace Sys2Proof.Machine

/-- OSC.RESET (R140): the three knobs are kept. -/
def oscReset (o : Oscillator) : Oscillator :=
  { o with
    phase := F32.zero, phaseMax := F32.zero, inc := F32.zero, sin0 := F32.zero, sin1 := F32.zero,
    dsin := F32.zero, dc := F32.zero }

/-- `halfPeriod` of the recompute branch (R142). -/
def oscHalfPeriod (o : Oscillator) : F32 := (o.period.div F32.two).mul o.modulation

/-- The recompute branch (R142), on an oscillator whose phase has been advanced: the new registers and the sample
before DC correction. -/
def oscRecompute (c : Config) (o : Oscillator) : Oscillator × F32 :=
  let halfPeriod := oscHalfPeriod o
  let m := (F32.half.add halfPeriod).floor.sub F32.half
  let phaseMax := m.mul c.pi
  let inc := phaseMax.div halfPeriod
  let phase := o.phase.neg
  let sin0 := o.amplitude.mul (c.sin phase)
  let o' : Oscillator :=
    { o with
      dc := (F32.half.mul o.amplitude).div m
      phaseMax := phaseMax
      inc := inc
      phase := phase
      sin0 := sin0
      sin1 := o.amplitude.mul (c.sin (phase.sub inc))
      dsin := F32.two.mul (c.cos inc) }
  (o', if (phase.mul phase).gt c.oscOriginEps then sin0.div phase else o.amplitude)

/-- The recursion branch (R143), on an oscillator whose phase has been advanced. -/
def oscRecur (o : Oscillator) : Oscillator × F32 :=
  let beyond := o.phase.gt o.phaseMax
  let phase := if beyond then (o.phaseMax.add o.phaseMax).sub o.phase else o.phase
  let sinp := (o.dsin.mul o.sin0).sub o.sin1
  ({ o with phase := phase, inc := if beyond then o.inc.neg else o.inc, sin1 := o.sin0, sin0 := sinp }, sinp.div phase)

/-- OSC.NEXT (R141): the new registers and the sample. -/
def oscNext (c : Config) (o : Oscillator) : Oscillator × F32 :=
  let advanced := { o with phase := o.phase.add o.inc }
  let r := if advanced.phase.le c.piOver4 then oscRecompute c advanced else oscRecur advanced
  (r.1, r.2.sub r.1.dc)

/-- OSC.SQUARE (R144): `o` seeded from `other`. -/
def oscSquare (c : Config) (o other : Oscillator) (newPeriod : F32) : Oscillator :=
  let start : F32 × F32 :=
    if other.inc.gt F32.zero then ((other.phaseMax.add other.phaseMax).sub other.phase, other.inc.neg)
    else if other.inc.lt F32.zero then (other.phase, other.inc)
    else (c.pi.neg, c.pi)
  let phase := start.1.add ((c.pi.mul newPeriod).div F32.two)
  { oscReset o with phase := phase, phaseMax := phase, inc := start.2 }

/-- An oscillator of a voice of the state replaced by its image under `f`. -/
def State.onOsc (s : State) (v : VoiceIx) (o : OscSel) (f : Oscillator → Oscillator) : State :=
  s.setVoice v ((s.voice v).setOsc o (f ((s.voice v).oscOf o)))

/-- OSC.RESET (R140). -/
def execOscReset (v : VoiceIx) (o : OscSel) (s : State) : Host.Outcome State Fault Refusal :=
  .next (s.onOsc v o oscReset)

/-- OSC.NEXT (R141 to R143). -/
def execOscNextIn (c : Config) (v : VoiceIx) (o : OscSel) (s : State) : Host.Outcome State Fault Refusal :=
  let r := oscNext c ((s.voice v).oscOf o)
  .next ((s.onOsc v o (fun _ => r.1)).setResult (.f32 r.2))

/-- OSC.NEXT (R141 to R143), under the configuration in force. -/
def execOscNext (v : VoiceIx) (o : OscSel) (s : State) : Host.Outcome State Fault Refusal := execOscNextIn cfg v o s

/-- OSC.SQUARE (R144): the reset runs first, so an oscillator seeded from itself reads its own cleared registers. -/
def execOscSquareIn (c : Config) (v : VoiceIx) (o : OscSel) (otherV : VoiceIx) (otherO : OscSel) (newPeriod : F32) (s : State) :
    Host.Outcome State Fault Refusal :=
  let cleared := s.onOsc v o oscReset
  .next (cleared.onOsc v o (fun x => oscSquare c x ((cleared.voice otherV).oscOf otherO) newPeriod))

/-- OSC.SQUARE (R144), under the configuration in force. -/
def execOscSquare (v : VoiceIx) (o : OscSel) (otherV : VoiceIx) (otherO : OscSel) (newPeriod : F32) (s : State) :
    Host.Outcome State Fault Refusal := execOscSquareIn cfg v o otherV otherO newPeriod s

end Sys2Proof.Machine
end

