-- ==== Sys2Proof/Machine/VoiceUnit.lean ====
section
/-! DEFINITION. Voice: composition, glide step, panning (spec 44_voice.md R190 to R194). -/

namespace Sys2Proof.Machine

/-- VOICE.RENDER (R190): oscillator 1, oscillator 2, integrator, noise, filter, envelope, in this order. -/
def voiceRender (c : Config) (v : Voice) (input : F32) : Voice × F32 :=
  let r1 := oscNext c v.osc1
  let r2 := oscNext c v.osc2
  let saw := ((v.saw.mul c.sawLeak).add r1.2).sub r2.2
  let y := fltRender c v.filter (saw.add input)
  let env := envNext c v.env
  ({ v with osc1 := r1.1, osc2 := r2.1, saw := saw, filter := y.1, env := env }, y.2.mul env.level)

/-- The exponent of the modulated cutoff (R191), by `FENV_COMBINE`. -/
def cutoffExponent (c : Config) (filterMod filterEnvDepth fe : F32) : F32 :=
  match c.fenvCombine with
  | .sum => (filterMod.add filterEnvDepth).add fe
  | .product => filterMod.add (filterEnvDepth.mul fe)

/-- VOICE.UPDATELFO (R191). `fs` is `S.sampleRate`. -/
def voiceUpdateLfo (c : Config) (fs : F32) (v : Voice) : Voice :=
  let period := v.period.add (v.glideRate.mul (v.target.sub v.period))
  let fenv := envNext c v.fenv
  let arg := cutoffExponent c v.filterMod v.filterEnvDepth fenv.level
  let mc := ((v.cutoff.mul (c.exp arg)).div v.pitchBend).clamp c.cutoffMin c.cutoffMax
  { v with period := period, fenv := fenv, filter := fltUpdate c fs v.filter mc v.filterQ }

/-- The pan position of a note, in `[-1, 1]` (R192); `note` is signed. -/
def panPosition (c : Config) (note : BitVec 8) : F32 :=
  (((F32.ofInt note.toInt).sub (F32.ofNat c.panCentre)).div c.panSpan).clamp F32.one.neg F32.one

/-- VOICE.UPDATEPAN (R192). -/
def voiceUpdatePan (c : Config) (v : Voice) : Voice :=
  let p := panPosition c v.note
  { v with
    panLeft := c.sin (c.piOver4.mul (F32.one.sub p))
    panRight := c.sin (c.piOver4.mul (F32.one.add p)) }

/-- VOICE.RELEASE (R193): `note` is not written. -/
def voiceRelease (v : Voice) : Voice := { v with env := envRelease v.env, fenv := envRelease v.fenv }

/-- VOICE.RESET (R194). -/
def voiceReset (c : Config) (v : Voice) : Voice :=
  { v with
    note := 0
    saw := F32.zero
    osc1 := oscReset v.osc1
    osc2 := oscReset v.osc2
    env := envReset v.env
    fenv := envReset v.fenv
    filter := fltReset v.filter
    panLeft := c.panReset
    panRight := c.panReset }

/-- VOICE.RESET (R194). -/
def execVoiceResetIn (c : Config) (v : VoiceIx) (s : State) : Host.Outcome State Fault Refusal :=
  .next (s.setVoice v (voiceReset c (s.voice v)))

/-- VOICE.RESET (R194), under the configuration in force. -/
def execVoiceReset (v : VoiceIx) (s : State) : Host.Outcome State Fault Refusal := execVoiceResetIn cfg v s

/-- VOICE.RENDER (R190). R195: no host command selects it on an inactive voice (log 20). -/
def execVoiceRenderIn (c : Config) (v : VoiceIx) (input : F32) (s : State) : Host.Outcome State Fault Refusal :=
  let r := voiceRender c (s.voice v) input
  .next ((s.setVoice v r.1).setResult (.f32 r.2))

/-- VOICE.RENDER (R190), under the configuration in force. -/
def execVoiceRender (v : VoiceIx) (input : F32) (s : State) : Host.Outcome State Fault Refusal :=
  execVoiceRenderIn cfg v input s

/-- VOICE.UPDATELFO (R191). -/
def execVoiceUpdateLfoIn (c : Config) (v : VoiceIx) (s : State) : Host.Outcome State Fault Refusal :=
  .next (s.setVoice v (voiceUpdateLfo c s.sampleRate (s.voice v)))

/-- VOICE.UPDATELFO (R191), under the configuration in force. -/
def execVoiceUpdateLfo (v : VoiceIx) (s : State) : Host.Outcome State Fault Refusal := execVoiceUpdateLfoIn cfg v s

/-- VOICE.UPDATEPAN (R192). -/
def execVoiceUpdatePanIn (c : Config) (v : VoiceIx) (s : State) : Host.Outcome State Fault Refusal :=
  .next (s.setVoice v (voiceUpdatePan c (s.voice v)))

/-- VOICE.UPDATEPAN (R192), under the configuration in force. -/
def execVoiceUpdatePan (v : VoiceIx) (s : State) : Host.Outcome State Fault Refusal := execVoiceUpdatePanIn cfg v s

/-- VOICE.RELEASE (R193). -/
def execVoiceRelease (v : VoiceIx) (s : State) : Host.Outcome State Fault Refusal :=
  .next (s.setVoice v (voiceRelease (s.voice v)))

end Sys2Proof.Machine
end

