-- ==== Sys2Proof/Machine/HostCommands.lean ====
section
/-! DEFINITION. Host commands NOP, RESET, ALLOC, DEALLOC and the reserved opcodes (spec 48_host_commands.md R300 to
R303). -/

namespace Sys2Proof.Machine

/-- The ramp length RESET loads (R301): `int(FLOOR(OUT_RAMP_SECONDS * S.sampleRate))`. -/
def rampLength (c : Config) (fs : F32) : Nat := (c.outRampSeconds.mul fs).floor.toNat

/-- The RESET command (R301). -/
def synthReset (c : Config) (s : State) : State :=
  { s with
    voices := s.voices.map (voiceReset c)
    ng := c.noiseSeed
    pitchBend := F32.one
    sustainPedal := false
    sm := { s.sm with len := rampLength c s.sampleRate, cur := s.sm.tgt, count := 0 }
    lfo := F32.zero
    lfoStep := 0
    modWheel := F32.zero
    lastNote := 0
    pressure := F32.zero
    filterCtl := F32.zero
    filterZip := F32.zero }

/-- Refused for a sample rate outside its range (R326 (c), 00_scope.md R16 (e)). -/
def rateRefusal (c : Config) (fs : F32) : Option Refusal :=
  if sampleRateInRange c fs then none else some (.paramOutOfRange .sampleRate)

/-- NOP (R300). -/
def execNop (s : State) : Host.Outcome State Fault Refusal := .next s

/-- RESET (R301). -/
def execResetIn (c : Config) (s : State) : Host.Outcome State Fault Refusal :=
  guarded (rateRefusal c s.sampleRate) (synthReset c s)

/-- RESET (R301), under the configuration in force. -/
def execReset (s : State) : Host.Outcome State Fault Refusal := execResetIn cfg s

/-- ALLOC (R302): the block size is accepted and ignored. -/
def execAllocIn (c : Config) (_blockSize : BitVec 24) (sampleRate : F32) (s : State) :
    Host.Outcome State Fault Refusal :=
  guarded (rateRefusal c sampleRate) { s with sampleRate := sampleRate, allocated := true }

/-- ALLOC (R302), under the configuration in force. -/
def execAlloc (_blockSize : BitVec 24) (sampleRate : F32) (s : State) : Host.Outcome State Fault Refusal :=
  execAllocIn cfg _blockSize sampleRate s

/-- DEALLOC (R303). -/
def execDealloc (s : State) : Host.Outcome State Fault Refusal := .next { s with allocated := false }

/-- Reserved opcode 0x07, as NOP (R87, R300). -/
def execReserved07 (s : State) : Host.Outcome State Fault Refusal := .next s

/-- Reserved opcodes 0x08 to 0x0F, as NOP (R87, R300). -/
def execReserved08 (_low : BitVec 3) (s : State) : Host.Outcome State Fault Refusal := .next s

/-- Reserved opcodes 0x10 to 0x1F, as NOP (R87, R300). -/
def execReserved10 (_low : BitVec 4) (s : State) : Host.Outcome State Fault Refusal := .next s

/-- Reserved opcodes 0x20 to 0x3F, as NOP (R87, R300). -/
def execReserved20 (_low : BitVec 5) (s : State) : Host.Outcome State Fault Refusal := .next s

/-- Reserved opcodes 0x40 to 0x7F, as NOP (R87, R300). -/
def execReserved40 (_low : BitVec 6) (s : State) : Host.Outcome State Fault Refusal := .next s

/-- Reserved opcodes 0x80 to 0xFF, as NOP (R87, R300). -/
def execReserved80 (_low : BitVec 7) (s : State) : Host.Outcome State Fault Refusal := .next s

end Sys2Proof.Machine
end

