-- ==== Sys2Proof/Machine/Allocation.lean ====
section
/-! DEFINITION. Voice allocation and the glide state machine (spec 47_voice_allocation.md R270 to R286). Each operation
is a total function on the state; beside it stands the list of parameter registers it reads, from which the refusals of
60_exceptions.md R322 are computed (log 21). -/

namespace Sys2Proof.Machine

/-! ## Choice of a voice -/

/-- The voices in ascending order. -/
def voiceOrder : List VoiceIx := [0, 1, 2, 3, 4, 5, 6, 7]

/-- SYN.FINDFREE (R273): the quietest voice not in attack, the lowest index on ties, voice 0 when every voice is in
attack. The scan carries the index found and the level to beat. -/
def findFree (c : Config) (voices : Bank Voice) : VoiceIx :=
  (voiceOrder.foldl
    (fun (best : VoiceIx × F32) i =>
      let e := (voices.get i).env
      if e.level.lt best.2 && !isInAttack c e then (i, e.level) else best)
    (0, c.findBound)).1

/-! ## Pitch -/

/-- The first line of SYN.CALCPERIOD (R274): equal temperament with a drift for each voice index. -/
def basePeriod (c : Config) (p : Params) (v : VoiceIx) (note : Int) : F32 :=
  p.tune.value.mul (c.exp (c.semi.neg.mul ((F32.ofInt note).add (c.analog.mul (F32.ofNat v.val)))))

/-- The condition of the doubling loop (R274): the period or its detuned companion is below 6 samples. -/
def periodTooShort (c : Config) (detune per : F32) : Bool :=
  per.lt c.minPeriod || (per.mul detune).lt c.minPeriod

/-- The doubling loop of SYN.CALCPERIOD (R274), at most `fuel` rounds. -/
def doublePeriod (c : Config) (detune : F32) (fuel : Nat) (per : F32) : F32 :=
  match fuel with
  | 0 => per
  | n + 1 => if periodTooShort c detune per then doublePeriod c detune n (per.add per) else per

/-- SYN.CALCPERIOD (R274). A loop that ends does so in fewer than 300 rounds (48_host_commands.md R305, log 9). -/
def calcPeriod (c : Config) (p : Params) (v : VoiceIx) (note : Int) : F32 :=
  doublePeriod c p.detune.value 300 (basePeriod c p v note)

/-- The registers SYN.CALCPERIOD reads (R40). -/
def calcPeriodReads : List ParamId := [.tune, .detune]

/-- Refused when the loop has not ended (R274, R326 (a)). -/
def periodRefusal (c : Config) (p : Params) (v : VoiceIx) (note : Int) : Option Refusal :=
  if periodTooShort c p.detune.value (calcPeriod c p v note) then some (.paramOutOfRange .periodLoop) else none

/-! ## Starting and restarting a voice -/

/-- `noteDistance` of SYN.STARTVOICE (R276): where the glide starts, in semitones from the new note. -/
def noteDistance (s : State) (note : BitVec 7) : Int :=
  if s.lastNote != 0 && (s.p.glideMode.value == 2 || (s.p.glideMode.value == 1 && legato s.voices)) then
    (note.toNat : Int) - s.lastNote.toNat
  else 0

/-- The starting period of a fresh note (R276): the target moved by the glide, at least 6 samples. -/
def startPeriod (c : Config) (per glideBend : F32) (distance : Int) : F32 :=
  let period := per.mul (c.pow c.semiRatio ((F32.ofInt distance).sub glideBend))
  if period.lt c.minPeriod then c.minPeriod else period

/-- The velocity curve (R276): `0.004 * (vel + 64)^2 - 8.0`. -/
def velocityCurve (c : Config) (vel : BitVec 7) : F32 := (c.velA.mul (F32.ofNat (velSquare c vel))).sub c.velC

/-- The base cutoff of a note (R276, R277): `sampleRate / (per * pi)`. -/
def baseCutoff (c : Config) (fs per : F32) : F32 := fs.div (per.mul c.pi)

/-- The velocity factor of the cutoff (R276, R277). -/
def velocityFactor (c : Config) (sensitivity : F32) (vel : Int) : F32 :=
  c.exp (sensitivity.mul (F32.ofInt (velOffset c vel)))

/-- The amplitude envelope's coefficients from the parameters (R276). -/
def loadEnv (p : Params) (e : Envelope) : Envelope :=
  { e with
    attackMul := p.envAttack.value
    decayMul := p.envDecay.value
    sustainLevel := p.envSustain.value
    releaseMul := p.envRelease.value }

/-- The filter envelope's coefficients from the parameters (R276). -/
def loadFenv (p : Params) (e : Envelope) : Envelope :=
  { e with
    attackMul := p.filterAttack.value
    decayMul := p.filterDecay.value
    sustainLevel := p.filterSustain.value
    releaseMul := p.filterRelease.value }

/-- The bank of a fresh note (R276), from the state before and the bank before. -/
def startedVoice (c : Config) (s : State) (v : VoiceIx) (note vel : BitVec 7) (old : Voice) : Voice :=
  let per := calcPeriod c s.p v note.toNat
  let period := startPeriod c per s.p.glideBend.value (noteDistance s note)
  let panned := voiceUpdatePan c { old with target := per, period := period, note := noteReg note }
  let amplitude := s.p.volumeTrim.value.mul (velocityCurve c vel)
  let osc1 := { panned.osc1 with amplitude := amplitude }
  let osc2 := { panned.osc2 with amplitude := amplitude.mul s.p.oscMix.value }
  let pulse := s.p.vibrato.value.feq F32.zero && s.p.pwmDepth.value.gt F32.zero
  { panned with
    osc1 := osc1
    osc2 := if pulse then oscSquare c osc2 osc1 period else osc2
    cutoff := (baseCutoff c s.sampleRate per).mul (velocityFactor c s.p.velocitySensitivity.value vel.toNat)
    env := envAttack c (loadEnv s.p panned.env)
    fenv := envAttack c (loadFenv s.p panned.fenv) }

/-- SYN.STARTVOICE (R276). -/
def startVoice (c : Config) (v : VoiceIx) (note vel : BitVec 7) (s : State) : State :=
  { s with
    voices := s.voices.set v (startedVoice c s v note vel (s.voice v))
    lastNote := noteReg note }

/-- The registers SYN.STARTVOICE reads in this state (R276, R324): `glideMode` only with a last note, `pwmDepth` only
with `vibrato == 0.0`. -/
def startVoiceReads (s : State) : List ParamId :=
  calcPeriodReads ++ (if s.lastNote != 0 then [.glideMode] else []) ++ [.glideBend, .volumeTrim, .oscMix, .vibrato] ++
  (if s.p.vibrato.value.feq F32.zero then [.pwmDepth] else []) ++
  [.velocitySensitivity, .envAttack, .envDecay, .envSustain, .envRelease] ++
  [.filterAttack, .filterDecay, .filterSustain, .filterRelease]

/-- The bank of voice 0 retriggered without a fresh attack (R277). `vel <= 0` means no velocity. -/
def restartedVoice (c : Config) (s : State) (note : BitVec 8) (vel : Int) (old : Voice) : Voice :=
  let per := calcPeriod c s.p 0 note.toInt
  let period := if s.p.glideMode.value == 0 then per else old.period
  let env := { old.env with level := old.env.level.add (silenceTwice c) }
  let panned := voiceUpdatePan c { old with target := per, period := period, env := env, note := note }
  let cutoff := baseCutoff c s.sampleRate per
  { panned with
    cutoff := if 0 < vel then cutoff.mul (velocityFactor c s.p.velocitySensitivity.value vel) else cutoff }

/-- SYN.RESTARTMONO (R277): `S.lastNote` and the filter envelope are not written. -/
def restartMono (c : Config) (note : BitVec 8) (vel : Int) (s : State) : State :=
  s.setVoice 0 (restartedVoice c s note vel (s.voice 0))

/-- The registers SYN.RESTARTMONO reads (R277, R324). -/
def restartMonoReads (vel : Int) : List ParamId :=
  calcPeriodReads ++ [.glideMode] ++ (if 0 < vel then [.velocitySensitivity] else [])

/-! ## The mono held-note queue -/

/-- A slot of the queue after SYN.SHIFTQ: the note of the slot before it, released (R280). -/
def shiftedSlot (previous slot : Voice) : Voice := voiceRelease { slot with note := previous.note }

/-- SYN.SHIFTQ (R280): descending order makes it a shift by one. -/
def shiftQ (s : State) : State :=
  let b := s.voices
  { s with
    voices :=
      ⟨b.v0, shiftedSlot b.v0 b.v1, shiftedSlot b.v1 b.v2, shiftedSlot b.v2 b.v3, shiftedSlot b.v3 b.v4,
        shiftedSlot b.v4 b.v5, shiftedSlot b.v5 b.v6, shiftedSlot b.v6 b.v7⟩ }

/-- The slot SYN.NEXTQ pops (R282): the scan runs from 7 down to 1 and keeps the last match. -/
def nextQSlot (voices : Bank Voice) : Option VoiceIx :=
  ([7, 6, 5, 4, 3, 2, 1] : List VoiceIx).foldl
    (fun held i => if isHeld (voices.get i).note then some i else held) none

/-- The note SYN.NEXTQ returns, 0 for an empty queue (R282). -/
def nextQNote (voices : Bank Voice) : BitVec 8 :=
  match nextQSlot voices with
  | some i => (voices.get i).note
  | none => 0

/-- The state after SYN.NEXTQ (R282): the popped slot is cleared. -/
def nextQPop (s : State) : State :=
  match nextQSlot s.voices with
  | some i => s.setVoice i { s.voice i with note := 0 }
  | none => s

/-! ## Note on -/

/-- Mono mode (R270): `P.numVoices == 1`. -/
def isMono (s : State) : Bool := s.p.numVoices.value == 1

/-- The velocity SYN.NOTEON uses (R270). -/
def effectiveVel (c : Config) (s : State) (vel : BitVec 7) : BitVec 7 :=
  if s.p.ignoreVelocity.value then c.velFixed else vel

/-- SYN.NOTEON (R270 to R272). -/
def noteOn (c : Config) (note vel : BitVec 7) (s : State) : State :=
  let vel := effectiveVel c s vel
  if isMono s then
    if isHeld (s.voice 0).note then restartMono c (noteReg note) vel.toNat (shiftQ s)
    else startVoice c 0 note vel s
  else startVoice c (findFree c s.voices) note vel s

/-- Why SYN.NOTEON is refused, if it is (R322, R324). -/
def noteOnRefusal (c : Config) (note vel : BitVec 7) (s : State) : Option Refusal :=
  let vel := effectiveVel c s vel
  if isMono s && isHeld (s.voice 0).note then
    (checkReads c s.p ([.ignoreVelocity, .numVoices] ++ restartMonoReads vel.toNat)).or (periodRefusal c s.p 0 note.toNat)
  else
    let v := if isMono s then 0 else findFree c s.voices
    (checkReads c s.p ([.ignoreVelocity, .numVoices] ++ startVoiceReads s)).or (periodRefusal c s.p v note.toNat)

/-! ## Note off -/

/-- A mono note-off that restores a queued note (R283). -/
def restoresQueued (s : State) (note : BitVec 7) : Bool :=
  isMono s && (s.voice 0).note == noteReg note && isHeld (nextQNote s.voices)

/-- What the sweep of SYN.NOTEOFF does to a voice (R283). -/
def noteOffVoice (c : Config) (pedal : Bool) (note : BitVec 7) (v : Voice) : Voice :=
  if v.note == noteReg note then
    (if pedal then { v with note := c.sustain } else { voiceRelease v with note := 0 })
  else v

/-- SYN.NOTEOFF (R283). -/
def noteOff (c : Config) (note : BitVec 7) (s : State) : State :=
  if restoresQueued s note then restartMono c (nextQNote s.voices) (-1) (nextQPop s)
  else s.mapVoices (noteOffVoice c s.sustainPedal note)

/-- Why SYN.NOTEOFF is refused, if it is (R322, R324). -/
def noteOffRefusal (c : Config) (note : BitVec 7) (s : State) : Option Refusal :=
  if restoresQueued s note then
    (checkReads c s.p (.numVoices :: restartMonoReads (-1))).or (periodRefusal c s.p 0 (nextQNote s.voices).toInt)
  else checkReads c s.p [.numVoices]

/-! ## The micro-operations -/

/-- SYN.NOTEON (R270). -/
def execSynNoteOnIn (c : Config) (note vel : BitVec 7) (s : State) : Host.Outcome State Fault Refusal :=
  guarded (noteOnRefusal c note vel s) (noteOn c note vel s)

/-- SYN.NOTEON (R270), under the configuration in force. -/
def execSynNoteOn (note vel : BitVec 7) (s : State) : Host.Outcome State Fault Refusal :=
  execSynNoteOnIn cfg note vel s

/-- SYN.NOTEOFF (R283). -/
def execSynNoteOffIn (c : Config) (note : BitVec 7) (s : State) : Host.Outcome State Fault Refusal :=
  guarded (noteOffRefusal c note s) (noteOff c note s)

/-- SYN.NOTEOFF (R283), under the configuration in force. -/
def execSynNoteOff (note : BitVec 7) (s : State) : Host.Outcome State Fault Refusal := execSynNoteOffIn cfg note s

/-- SYN.FINDFREE (R273). -/
def execSynFindFreeIn (c : Config) (s : State) : Host.Outcome State Fault Refusal :=
  .next (s.setResult (.voice (findFree c s.voices)))

/-- SYN.FINDFREE (R273), under the configuration in force. -/
def execSynFindFree (s : State) : Host.Outcome State Fault Refusal := execSynFindFreeIn cfg s

/-- SYN.CALCPERIOD (R274). -/
def execSynCalcPeriodIn (c : Config) (v : VoiceIx) (note : BitVec 7) (s : State) : Host.Outcome State Fault Refusal :=
  guarded ((checkReads c s.p calcPeriodReads).or (periodRefusal c s.p v note.toNat))
    (s.setResult (.f32 (calcPeriod c s.p v note.toNat)))

/-- SYN.CALCPERIOD (R274), under the configuration in force. -/
def execSynCalcPeriod (v : VoiceIx) (note : BitVec 7) (s : State) : Host.Outcome State Fault Refusal :=
  execSynCalcPeriodIn cfg v note s

/-- SYN.STARTVOICE (R276). -/
def execSynStartVoiceIn (c : Config) (v : VoiceIx) (note vel : BitVec 7) (s : State) :
    Host.Outcome State Fault Refusal :=
  guarded ((checkReads c s.p (startVoiceReads s)).or (periodRefusal c s.p v note.toNat)) (startVoice c v note vel s)

/-- SYN.STARTVOICE (R276), under the configuration in force. -/
def execSynStartVoice (v : VoiceIx) (note vel : BitVec 7) (s : State) : Host.Outcome State Fault Refusal :=
  execSynStartVoiceIn cfg v note vel s

/-- SYN.RESTARTMONO (R277). -/
def execSynRestartMonoIn (c : Config) (note : BitVec 7) (vel : BitVec 8) (s : State) :
    Host.Outcome State Fault Refusal :=
  guarded ((checkReads c s.p (restartMonoReads vel.toInt)).or (periodRefusal c s.p 0 note.toNat))
    (restartMono c (noteReg note) vel.toInt s)

/-- SYN.RESTARTMONO (R277), under the configuration in force. -/
def execSynRestartMono (note : BitVec 7) (vel : BitVec 8) (s : State) : Host.Outcome State Fault Refusal :=
  execSynRestartMonoIn cfg note vel s

/-- SYN.SHIFTQ (R280). -/
def execSynShiftQ (s : State) : Host.Outcome State Fault Refusal := .next (shiftQ s)

/-- SYN.NEXTQ (R282). -/
def execSynNextQ (s : State) : Host.Outcome State Fault Refusal :=
  .next ((nextQPop s).setResult (.note (nextQNote s.voices)))

/-- SYN.LEGATO (R275). -/
def execSynLegato (s : State) : Host.Outcome State Fault Refusal := .next (s.setResult (.bool (legato s.voices)))

end Sys2Proof.Machine
end

