-- ==== Sys2Proof/Machine/Midi.lean ====
section
/-! DEFINITION. MIDI: the messages, the controllers and the umbrella rows (spec 46_midi_control.md R240 to R254). -/

namespace Sys2Proof.Machine

/-- Note off (R241). -/
def noteOffMsg (c : Config) (note : BitVec 7) (s : State) : Host.Outcome State Fault Refusal :=
  guarded (noteOffRefusal c note s) (noteOff c note s)

/-- Note on (R242): velocity 0 is a note off. -/
def noteOnMsg (c : Config) (note vel : BitVec 7) (s : State) : Host.Outcome State Fault Refusal :=
  if vel = 0 then noteOffMsg c note s else guarded (noteOnRefusal c note vel s) (noteOn c note vel s)

/-- Pitch bend (R243). -/
def pitchBendMsg (c : Config) (d1 d2 : BitVec 7) (s : State) : State :=
  { s with pitchBend := c.exp (c.pbCoeff.neg.mul (F32.ofInt ((bend14 d1 d2 : Int) - 8192))) }

/-- Channel pressure (R245). -/
def pressureMsg (c : Config) (val : BitVec 7) (s : State) : State :=
  { s with pressure := c.pressureCoeff.mul (F32.ofNat (square7 val)) }

/-- Mod wheel (R247). -/
def modWheelCc (c : Config) (val : BitVec 7) (s : State) : State :=
  { s with modWheel := c.modwheelCoeff.mul (F32.ofNat (square7 val)) }

/-- The pedal-up sweep on a voice (R250). -/
def pedalUpVoice (c : Config) (v : Voice) : Voice :=
  if v.note == c.sustain then { voiceRelease v with note := 0 } else v

/-- Sustain pedal (R250): the flag, and the sweep on every pedal-up message. -/
def sustainCc (c : Config) (val : BitVec 7) (s : State) : State :=
  if c.pedalThreshold ≤ val.toNat then { s with sustainPedal := true }
  else { s with sustainPedal := false, voices := s.voices.map (pedalUpVoice c) }

/-- Filter brightness up (R251). -/
def filterPlusCc (c : Config) (val : BitVec 7) (s : State) : State :=
  { s with filterCtl := c.filterCcPos.mul (F32.ofNat val.toNat) }

/-- Filter brightness down (R252). -/
def filterMinusCc (c : Config) (val : BitVec 7) (s : State) : State :=
  { s with filterCtl := c.filterCcNeg.mul (F32.ofNat val.toNat) }

/-- Channel mode (R253). -/
def channelModeCc (c : Config) (s : State) : State :=
  { s with voices := s.voices.map (voiceReset c), sustainPedal := false }

/-- Control change (R244). -/
def controlChange (c : Config) (ctl val : BitVec 7) (s : State) : State :=
  let n := ctl.toNat
  if n = c.ccModwheel then modWheelCc c val s
  else if n = c.ccSustain then sustainCc c val s
  else if n = c.ccFilterPos then filterPlusCc c val s
  else if n = c.ccFilterNeg then filterMinusCc c val s
  else if c.ccChannelMode ≤ n then channelModeCc c s
  else s

/-- MIDI (R240): by status nibble; the channel nibble and the top bits of the data bytes are ignored (R83). -/
def midiMessage (c : Config) (b0 b1 b2 : BitVec 8) (s : State) : Host.Outcome State Fault Refusal :=
  let d1 := b1.setWidth 7
  let d2 := b2.setWidth 7
  match b0.toNat / 16 with
  | 0x8 => noteOffMsg c d1 s
  | 0x9 => noteOnMsg c d1 d2 s
  | 0xB => .next (controlChange c d1 d2 s)
  | 0xD => .next (pressureMsg c d1 s)
  | 0xE => .next (pitchBendMsg c d1 d2 s)
  | _ => .next s

/-- MIDI (R240). -/
def execMidiIn (c : Config) (b0 b1 b2 : BitVec 8) (s : State) : Host.Outcome State Fault Refusal := midiMessage c b0 b1 b2 s

/-- MIDI (R240), under the configuration in force. -/
def execMidi (b0 b1 b2 : BitVec 8) (s : State) : Host.Outcome State Fault Refusal := execMidiIn cfg b0 b1 b2 s

/-- MIDI.NOTEOFF (R241). -/
def execMidiNoteOffIn (c : Config) (note : BitVec 7) (s : State) : Host.Outcome State Fault Refusal := noteOffMsg c note s

/-- MIDI.NOTEOFF (R241), under the configuration in force. -/
def execMidiNoteOff (note : BitVec 7) (s : State) : Host.Outcome State Fault Refusal := execMidiNoteOffIn cfg note s

/-- MIDI.NOTEON (R242). -/
def execMidiNoteOnIn (c : Config) (note vel : BitVec 7) (s : State) : Host.Outcome State Fault Refusal := noteOnMsg c note vel s

/-- MIDI.NOTEON (R242), under the configuration in force. -/
def execMidiNoteOn (note vel : BitVec 7) (s : State) : Host.Outcome State Fault Refusal :=
  execMidiNoteOnIn cfg note vel s

/-- MIDI.CC (R244). -/
def execMidiCcIn (c : Config) (ctl val : BitVec 7) (s : State) : Host.Outcome State Fault Refusal :=
  .next (controlChange c ctl val s)

/-- MIDI.CC (R244), under the configuration in force. -/
def execMidiCc (ctl val : BitVec 7) (s : State) : Host.Outcome State Fault Refusal := execMidiCcIn cfg ctl val s

/-- MIDI.PRESSURE (R245). -/
def execMidiPressureIn (c : Config) (val : BitVec 7) (s : State) : Host.Outcome State Fault Refusal := .next (pressureMsg c val s)

/-- MIDI.PRESSURE (R245), under the configuration in force. -/
def execMidiPressure (val : BitVec 7) (s : State) : Host.Outcome State Fault Refusal := execMidiPressureIn cfg val s

/-- MIDI.BEND (R243). -/
def execMidiBendIn (c : Config) (d1 d2 : BitVec 7) (s : State) : Host.Outcome State Fault Refusal := .next (pitchBendMsg c d1 d2 s)

/-- MIDI.BEND (R243), under the configuration in force. -/
def execMidiBend (d1 d2 : BitVec 7) (s : State) : Host.Outcome State Fault Refusal := execMidiBendIn cfg d1 d2 s

/-- Status nibbles 0x0 to 0x7: ignored (R246). -/
def execMidiIgnored07 (_status : BitVec 3) (s : State) : Host.Outcome State Fault Refusal := .next s

/-- Status nibble 0xA: ignored (R246). -/
def execMidiIgnoredA (s : State) : Host.Outcome State Fault Refusal := .next s

/-- Status nibble 0xC: ignored (R246). -/
def execMidiIgnoredC (s : State) : Host.Outcome State Fault Refusal := .next s

/-- Status nibble 0xF: ignored (R246). -/
def execMidiIgnoredF (s : State) : Host.Outcome State Fault Refusal := .next s

/-- MIDI.CC.MODWHEEL (R247). -/
def execCcModWheelIn (c : Config) (val : BitVec 7) (s : State) : Host.Outcome State Fault Refusal := .next (modWheelCc c val s)

/-- MIDI.CC.MODWHEEL (R247), under the configuration in force. -/
def execCcModWheel (val : BitVec 7) (s : State) : Host.Outcome State Fault Refusal := execCcModWheelIn cfg val s

/-- MIDI.CC.SUSTAIN (R250). -/
def execCcSustainIn (c : Config) (val : BitVec 7) (s : State) : Host.Outcome State Fault Refusal := .next (sustainCc c val s)

/-- MIDI.CC.SUSTAIN (R250), under the configuration in force. -/
def execCcSustain (val : BitVec 7) (s : State) : Host.Outcome State Fault Refusal := execCcSustainIn cfg val s

/-- MIDI.CC.FILTER_POS (R251). -/
def execCcFilterPosIn (c : Config) (val : BitVec 7) (s : State) : Host.Outcome State Fault Refusal := .next (filterPlusCc c val s)

/-- MIDI.CC.FILTER_POS (R251), under the configuration in force. -/
def execCcFilterPos (val : BitVec 7) (s : State) : Host.Outcome State Fault Refusal := execCcFilterPosIn cfg val s

/-- MIDI.CC.FILTER_NEG (R252). -/
def execCcFilterNegIn (c : Config) (val : BitVec 7) (s : State) : Host.Outcome State Fault Refusal := .next (filterMinusCc c val s)

/-- MIDI.CC.FILTER_NEG (R252), under the configuration in force. -/
def execCcFilterNeg (val : BitVec 7) (s : State) : Host.Outcome State Fault Refusal := execCcFilterNegIn cfg val s

/-- MIDI.CC.CHANNELMODE (R253): the eight controller numbers behave alike and the value is ignored. -/
def execCcChannelModeIn (c : Config) (_low : BitVec 3) (s : State) : Host.Outcome State Fault Refusal := .next (channelModeCc c s)

/-- MIDI.CC.CHANNELMODE (R253), under the configuration in force. -/
def execCcChannelMode (_low : BitVec 3) (s : State) : Host.Outcome State Fault Refusal :=
  execCcChannelModeIn cfg _low s

/-- MIDI.CC.OTHER (R254): no state changes. -/
def execCcOther (_ctl _val : BitVec 7) (s : State) : Host.Outcome State Fault Refusal := .next s

end Sys2Proof.Machine
end

