-- ==== Sys2Proof/Machine/ParamSet.lean ====
section
/-! DEFINITION. PSET, one meaning for each parameter register and one for the umbrella row (spec 48_host_commands.md
R304; registers 10_state.md R40). The value is not range-checked here: a value out of range is refused where it is
read (R326). -/

namespace Sys2Proof.Machine

/-- PSET of `P0` (R304). -/
def execPsetNoiseMix (x : F32) (s : State) : Host.Outcome State Fault Refusal :=
  .next { s with p := { s.p with noiseMix := writtenParam x } }

/-- PSET of `P1` (R304). -/
def execPsetEnvAttack (x : F32) (s : State) : Host.Outcome State Fault Refusal :=
  .next { s with p := { s.p with envAttack := writtenParam x } }

/-- PSET of `P2` (R304). -/
def execPsetEnvDecay (x : F32) (s : State) : Host.Outcome State Fault Refusal :=
  .next { s with p := { s.p with envDecay := writtenParam x } }

/-- PSET of `P3` (R304). -/
def execPsetEnvSustain (x : F32) (s : State) : Host.Outcome State Fault Refusal :=
  .next { s with p := { s.p with envSustain := writtenParam x } }

/-- PSET of `P4` (R304). -/
def execPsetEnvRelease (x : F32) (s : State) : Host.Outcome State Fault Refusal :=
  .next { s with p := { s.p with envRelease := writtenParam x } }

/-- PSET of `P5` (R304). -/
def execPsetOscMix (x : F32) (s : State) : Host.Outcome State Fault Refusal :=
  .next { s with p := { s.p with oscMix := writtenParam x } }

/-- PSET of `P6` (R304). -/
def execPsetDetune (x : F32) (s : State) : Host.Outcome State Fault Refusal :=
  .next { s with p := { s.p with detune := writtenParam x } }

/-- PSET of `P7` (R304). -/
def execPsetTune (x : F32) (s : State) : Host.Outcome State Fault Refusal :=
  .next { s with p := { s.p with tune := writtenParam x } }

/-- PSET of `P8` (R304). -/
def execPsetNumVoices (x : BitVec 8) (s : State) : Host.Outcome State Fault Refusal :=
  .next { s with p := { s.p with numVoices := writtenParam x } }

/-- PSET of `P9` (R304). -/
def execPsetVolumeTrim (x : F32) (s : State) : Host.Outcome State Fault Refusal :=
  .next { s with p := { s.p with volumeTrim := writtenParam x } }

/-- PSET of `P10` (R304). -/
def execPsetOutputLevel (x : F32) (s : State) : Host.Outcome State Fault Refusal :=
  .next { s with p := { s.p with outputLevel := writtenParam x } }

/-- PSET of `P11` (R304). -/
def execPsetVelocitySensitivity (x : F32) (s : State) : Host.Outcome State Fault Refusal :=
  .next { s with p := { s.p with velocitySensitivity := writtenParam x } }

/-- PSET of `P12` (R304). -/
def execPsetIgnoreVelocity (x : Bool) (s : State) : Host.Outcome State Fault Refusal :=
  .next { s with p := { s.p with ignoreVelocity := writtenParam x } }

/-- PSET of `P13` (R304). -/
def execPsetLfoInc (x : F32) (s : State) : Host.Outcome State Fault Refusal :=
  .next { s with p := { s.p with lfoInc := writtenParam x } }

/-- PSET of `P14` (R304). -/
def execPsetVibrato (x : F32) (s : State) : Host.Outcome State Fault Refusal :=
  .next { s with p := { s.p with vibrato := writtenParam x } }

/-- PSET of `P15` (R304). -/
def execPsetPwmDepth (x : F32) (s : State) : Host.Outcome State Fault Refusal :=
  .next { s with p := { s.p with pwmDepth := writtenParam x } }

/-- PSET of `P16` (R304). -/
def execPsetGlideMode (x : BitVec 8) (s : State) : Host.Outcome State Fault Refusal :=
  .next { s with p := { s.p with glideMode := writtenParam x } }

/-- PSET of `P17` (R304). -/
def execPsetGlideRate (x : F32) (s : State) : Host.Outcome State Fault Refusal :=
  .next { s with p := { s.p with glideRate := writtenParam x } }

/-- PSET of `P18` (R304). -/
def execPsetGlideBend (x : F32) (s : State) : Host.Outcome State Fault Refusal :=
  .next { s with p := { s.p with glideBend := writtenParam x } }

/-- PSET of `P19` (R304). -/
def execPsetFilterKeyTracking (x : F32) (s : State) : Host.Outcome State Fault Refusal :=
  .next { s with p := { s.p with filterKeyTracking := writtenParam x } }

/-- PSET of `P20` (R304). -/
def execPsetFilterQ (x : F32) (s : State) : Host.Outcome State Fault Refusal :=
  .next { s with p := { s.p with filterQ := writtenParam x } }

/-- PSET of `P21` (R304). -/
def execPsetFilterLFODepth (x : F32) (s : State) : Host.Outcome State Fault Refusal :=
  .next { s with p := { s.p with filterLFODepth := writtenParam x } }

/-- PSET of `P22` (R304). -/
def execPsetFilterAttack (x : F32) (s : State) : Host.Outcome State Fault Refusal :=
  .next { s with p := { s.p with filterAttack := writtenParam x } }

/-- PSET of `P23` (R304). -/
def execPsetFilterDecay (x : F32) (s : State) : Host.Outcome State Fault Refusal :=
  .next { s with p := { s.p with filterDecay := writtenParam x } }

/-- PSET of `P24` (R304). -/
def execPsetFilterSustain (x : F32) (s : State) : Host.Outcome State Fault Refusal :=
  .next { s with p := { s.p with filterSustain := writtenParam x } }

/-- PSET of `P25` (R304). -/
def execPsetFilterRelease (x : F32) (s : State) : Host.Outcome State Fault Refusal :=
  .next { s with p := { s.p with filterRelease := writtenParam x } }

/-- PSET of `P26` (R304). -/
def execPsetFilterEnvDepth (x : F32) (s : State) : Host.Outcome State Fault Refusal :=
  .next { s with p := { s.p with filterEnvDepth := writtenParam x } }

/-- The parameter file after a PSET by index (R304): the value is the data word, its low byte or its low bit, by the
register's type; an index above 26 changes nothing (R87). -/
def psetByIndex (p : Params) (idx : BitVec 8) (wdata : Word) : Params :=
  match idx.toNat with
  | 0 => { p with noiseMix := writtenParam (F32.mk wdata) }
  | 1 => { p with envAttack := writtenParam (F32.mk wdata) }
  | 2 => { p with envDecay := writtenParam (F32.mk wdata) }
  | 3 => { p with envSustain := writtenParam (F32.mk wdata) }
  | 4 => { p with envRelease := writtenParam (F32.mk wdata) }
  | 5 => { p with oscMix := writtenParam (F32.mk wdata) }
  | 6 => { p with detune := writtenParam (F32.mk wdata) }
  | 7 => { p with tune := writtenParam (F32.mk wdata) }
  | 8 => { p with numVoices := writtenParam (wdata.setWidth 8) }
  | 9 => { p with volumeTrim := writtenParam (F32.mk wdata) }
  | 10 => { p with outputLevel := writtenParam (F32.mk wdata) }
  | 11 => { p with velocitySensitivity := writtenParam (F32.mk wdata) }
  | 12 => { p with ignoreVelocity := writtenParam (wdata.getLsbD 0) }
  | 13 => { p with lfoInc := writtenParam (F32.mk wdata) }
  | 14 => { p with vibrato := writtenParam (F32.mk wdata) }
  | 15 => { p with pwmDepth := writtenParam (F32.mk wdata) }
  | 16 => { p with glideMode := writtenParam (wdata.setWidth 8) }
  | 17 => { p with glideRate := writtenParam (F32.mk wdata) }
  | 18 => { p with glideBend := writtenParam (F32.mk wdata) }
  | 19 => { p with filterKeyTracking := writtenParam (F32.mk wdata) }
  | 20 => { p with filterQ := writtenParam (F32.mk wdata) }
  | 21 => { p with filterLFODepth := writtenParam (F32.mk wdata) }
  | 22 => { p with filterAttack := writtenParam (F32.mk wdata) }
  | 23 => { p with filterDecay := writtenParam (F32.mk wdata) }
  | 24 => { p with filterSustain := writtenParam (F32.mk wdata) }
  | 25 => { p with filterRelease := writtenParam (F32.mk wdata) }
  | 26 => { p with filterEnvDepth := writtenParam (F32.mk wdata) }
  | _ => p

/-- PSET (R304). -/
def execPset (idx : BitVec 8) (wdata : Word) (s : State) : Host.Outcome State Fault Refusal :=
  .next { s with p := psetByIndex s.p idx wdata }

end Sys2Proof.Machine
end

