-- ==== Sys2Proof/Machine/Render.lean ====
section
/-! DEFINITION. RENDER, the LFO, the output-level smoother and the safety net (spec 45_synth_render.md R210 to R222). -/

namespace Sys2Proof.Machine

/-! ## Smoother -/

/-- SM.SET (R216). -/
def smSet (sm : Smoother) (x : F32) : Smoother :=
  if x.feq sm.tgt then sm
  else if sm.len = 0 then { sm with cur := x, tgt := x, count := 0 }
  else { sm with tgt := x, count := sm.len, step := (x.sub sm.cur).div (F32.ofNat sm.len) }

/-- SM.NEXT (R222): the smoother and the level of this sample. -/
def smNext (sm : Smoother) : Smoother × F32 :=
  if sm.count = 0 then (sm, sm.tgt)
  else
    let count := sm.count - 1
    let cur := if 0 < count then sm.cur.add sm.step else sm.tgt
    ({ sm with count := count, cur := cur }, cur)

/-! ## LFO -/

/-- SYN.UPDATEPERIOD on a bank (R215): the bent period and its detuned companion. -/
def updatePeriod (bend detune : F32) (v : Voice) : Voice :=
  let period1 := v.period.mul bend
  { v with
    osc1 := { v.osc1 with period := period1 }
    osc2 := { v.osc2 with period := period1.mul detune } }

/-- What an LFO tick does to an active voice (R214). -/
def tickVoice (c : Config) (fs bend detune vibratoMod pwm zip : F32) (v : Voice) : Voice :=
  if v.active c then
    updatePeriod bend detune
      (voiceUpdateLfo c fs
        { v with
          osc1 := { v.osc1 with modulation := vibratoMod }
          osc2 := { v.osc2 with modulation := pwm }
          filterMod := zip })
  else v

/-- The LFO phase after one tick (R214): one subtraction of 2 pi when it passes pi. -/
def lfoPhaseNext (c : Config) (lfo inc : F32) : F32 :=
  let phase := lfo.add inc
  if phase.gt c.pi then phase.sub c.twoPi else phase

/-- An LFO tick (R214). -/
def lfoTick (c : Config) (s : State) : State :=
  let lfo := lfoPhaseNext c s.lfo s.p.lfoInc.value
  let sine := c.sin lfo
  let vibratoMod := F32.one.add (sine.mul (s.modWheel.add s.p.vibrato.value))
  let pwm := F32.one.add (sine.mul (s.modWheel.add s.p.pwmDepth.value))
  let filterMod :=
    (s.p.filterKeyTracking.value.add s.filterCtl).add ((s.p.filterLFODepth.value.add s.pressure).mul sine)
  let zip := s.filterZip.add (c.filterZip.mul (filterMod.sub s.filterZip))
  { s with
    lfoStep := c.lfoMax
    lfo := lfo
    filterZip := zip
    voices := s.voices.map (tickVoice c s.sampleRate s.pitchBend s.p.detune.value vibratoMod pwm zip) }

/-- SYN.LFOSTEP (R214). -/
def lfoStep (c : Config) (s : State) : State :=
  if s.lfoStep - 1 ≤ 0 then lfoTick c s else { s with lfoStep := s.lfoStep - 1 }

/-- The registers an LFO tick reads (R40, R214); `detune` is read for an active voice (R215). -/
def tickReads (anyActive : Bool) : List ParamId :=
  [.lfoInc, .vibrato, .pwmDepth, .filterKeyTracking, .filterLFODepth] ++ (if anyActive then [.detune] else [])

/-! ## One sample step -/

/-- A voice's part of a sample step (R212): an active voice renders, and gives its panned output. -/
def mixVoice (c : Config) (noise : F32) (v : Voice) : Voice × Option (F32 × F32) :=
  if v.active c then
    let r := voiceRender c v noise
    (r.1, some (r.2.mul v.panLeft, r.2.mul v.panRight))
  else (v, none)

/-- The accumulators, in ascending voice order (R212 (b)). -/
def mixSum (outs : List (Option (F32 × F32))) : F32 × F32 :=
  outs.foldl
    (fun acc o =>
      match o with
      | some (l, r) => (acc.1.add l, acc.2.add r)
      | none => acc)
    (F32.zero, F32.zero)

/-- The output write of sample step `k` (R217). -/
def writeSample (stereo : Bool) (k : Nat) (l r : F32) (s : State) : State :=
  if stereo then { s with outL := outWrite s.outL k l, outR := outWrite s.outR k r }
  else { s with outL := outWrite s.outL k ((l.add r).mul F32.half) }

/-- RENDER's sample step `k` (R212): noise, LFO, voices, smoother, write. -/
def sampleStep (c : Config) (stereo : Bool) (k : Nat) (s : State) : State :=
  let seed := noiseSeedNext c s.ng
  let noise := (noiseSample c seed).mul s.p.noiseMix.value
  let s := lfoStep c { s with ng := seed }
  let mixed := s.voices.map (mixVoice c noise)
  let sum := mixSum (mixed.map Prod.snd).toList
  let level := smNext s.sm
  writeSample stereo k (sum.1.mul level.2) (sum.2.mul level.2)
    { s with voices := mixed.map Prod.fst, sm := level.1 }

/-- `count` sample steps from sample `k` on (R210). -/
def sampleSteps (c : Config) (stereo : Bool) (count k : Nat) (s : State) : State :=
  match count with
  | 0 => s
  | n + 1 => sampleSteps c stereo n (k + 1) (sampleStep c stereo k s)

/-! ## The command -/

/-- The prologue's part for one voice (R211): an active voice gets the block's copies. -/
def prologueVoice (c : Config) (bend : F32) (p : Params) (v : Voice) : Voice :=
  if v.active c then
    { updatePeriod bend p.detune.value v with
      glideRate := p.glideRate.value
      filterQ := p.filterQ.value
      pitchBend := bend
      filterEnvDepth := p.filterEnvDepth.value }
  else v

/-- The prologue (R211), without the scratch bits. -/
def prologue (c : Config) (s : State) : State :=
  { s with
    voices := s.voices.map (prologueVoice c s.pitchBend s.p)
    sm := smSet s.sm s.p.outputLevel.value }

/-- The end-of-block sweep (R218): a voice that was active at the prologue and is not now is reset. -/
def sweepVoice (c : Config) (was : Bool) (v : Voice) : Voice :=
  if was && !v.active c then voiceReset c v else v

/-- SYN.SAFE (R219). -/
def safe (c : Config) (x : F32) : F32 :=
  if x.isNaN || x.isInf then F32.zero
  else if x.lt c.safeZero.neg || x.gt c.safeZero then F32.zero
  else if x.lt c.safeClamp.neg then c.safeClamp.neg
  else if x.gt c.safeClamp then c.safeClamp
  else x

/-- The safety pass over one buffer (R219): every word of this block through SYN.SAFE. -/
def safetyBuf (c : Config) (id : OutId) (n : Nat) (b : OutBuf) : OutBuf :=
  (List.range n).foldl (fun b k => outWrite b k (safe c (outRead id b k))) b

/-- The safety pass (R219). -/
def safetyPass (c : Config) (stereo : Bool) (n : Nat) (s : State) : State :=
  { s with
    outL := safetyBuf c .left n s.outL
    outR := if stereo then safetyBuf c .right n s.outR else s.outR }

/-- RENDER (R210). -/
def renderBlock (c : Config) (stereo : Bool) (n : Nat) (s : State) : State :=
  let was := s.voices.map (fun v => v.active c)
  let s := sampleSteps c stereo n 0 (prologue c s)
  safetyPass c stereo n { s with voices := Bank.zip (sweepVoice c) was s.voices }

/-- Whether any voice is active. -/
def anyActive (c : Config) (s : State) : Bool := s.voices.toList.any (fun v => v.active c)

/-- The registers RENDER reads in this state (R324): the copies for an active voice, the noise gain for a sample step,
the tick's registers when the down-counter runs out within the block. -/
def renderReads (c : Config) (n : Nat) (s : State) : List ParamId :=
  [.outputLevel] ++ (if anyActive c s then [.detune, .glideRate, .filterQ, .filterEnvDepth] else []) ++
  (if n = 0 then [] else [.noiseMix]) ++
  (if n = 0 ∨ (n : Int) < s.lfoStep then [] else tickReads (anyActive c s))

/-- A block longer than OUT_CAPACITY. R86 (30_encoding.md) bounds the operand by it, R60 and R61 (20_memory.md) give the
buffers no word at or beyond it, and no rule says what such a RENDER does. DESIGN CHOICE (log 23), safe: the command is
refused, whole. Under the configuration in force the 23-bit operand cannot exceed it. -/
def capacityRefusal (c : Config) (n : Nat) : Option Refusal :=
  if c.outCapacity < n then some .blockBeyondCapacity else none

/-- Why RENDER is refused, if it is: the classes of R322 in their order (R330), then a block beyond OUT_CAPACITY, which
is the model's choice (log 23). -/
def renderRefusal (c : Config) (n : Nat) (s : State) : Option Refusal :=
  if !s.allocated then some .notAllocated
  else (checkReads c s.p (renderReads c n s)).or (capacityRefusal c n)

/-- RENDER (R210) of a block the buffers hold; a longer one is refused (`capacityRefusal`; DESIGN CHOICE, log 23). -/
def execRenderIn (c : Config) (stereo : Bool) (n : BitVec 23) (s : State) : Host.Outcome State Fault Refusal :=
  guarded (renderRefusal c n.toNat s) (renderBlock c stereo n.toNat s)

/-- RENDER (R210), under the configuration in force. -/
def execRender (stereo : Bool) (n : BitVec 23) (s : State) : Host.Outcome State Fault Refusal :=
  execRenderIn cfg stereo n s

/-- SYN.LFOSTEP (R214). -/
def execSynLfoStepIn (c : Config) (s : State) : Host.Outcome State Fault Refusal :=
  guarded (if s.lfoStep - 1 ≤ 0 then checkReads c s.p (tickReads (anyActive c s)) else none) (lfoStep c s)

/-- SYN.LFOSTEP (R214), under the configuration in force. -/
def execSynLfoStep (s : State) : Host.Outcome State Fault Refusal := execSynLfoStepIn cfg s

/-- SYN.UPDATEPERIOD (R215). -/
def execSynUpdatePeriodIn (c : Config) (v : VoiceIx) (s : State) : Host.Outcome State Fault Refusal :=
  guarded (checkReads c s.p [.detune]) (s.setVoice v (updatePeriod s.pitchBend s.p.detune.value (s.voice v)))

/-- SYN.UPDATEPERIOD (R215), under the configuration in force. -/
def execSynUpdatePeriod (v : VoiceIx) (s : State) : Host.Outcome State Fault Refusal := execSynUpdatePeriodIn cfg v s

/-- SM.SET (R216). -/
def execSmSet (x : F32) (s : State) : Host.Outcome State Fault Refusal := .next { s with sm := smSet s.sm x }

/-- SM.NEXT (R222). -/
def execSmNext (s : State) : Host.Outcome State Fault Refusal :=
  let r := smNext s.sm
  .next ({ s with sm := r.1 }.setResult (.f32 r.2))

/-- SYN.SAFE (R219). -/
def execSynSafeIn (c : Config) (x : F32) (s : State) : Host.Outcome State Fault Refusal := .next (s.setResult (.f32 (safe c x)))

/-- SYN.SAFE (R219), under the configuration in force. -/
def execSynSafe (x : F32) (s : State) : Host.Outcome State Fault Refusal := execSynSafeIn cfg x s

end Sys2Proof.Machine
end

