-- ==== Sys2Proof/Machine/Dispatch.lean ====
section
/-! DEFINITION. The dispatch: one arm per constructor of Instr, each one direct call of its meaning. -/

namespace Sys2Proof.Machine

def exec (i : Instr) (s : State) : Host.Outcome State Fault Refusal :=
  match i with
  | .nop => Sys2Proof.Machine.execNop s
  | .reset => Sys2Proof.Machine.execReset s
  | .alloc blockSize sampleRate => Sys2Proof.Machine.execAlloc blockSize sampleRate s
  | .dealloc => Sys2Proof.Machine.execDealloc s
  | .pset idx wdata => Sys2Proof.Machine.execPset idx wdata s
  | .midi b0 b1 b2 => Sys2Proof.Machine.execMidi b0 b1 b2 s
  | .render stereo n => Sys2Proof.Machine.execRender stereo n s
  | .reserved07 => Sys2Proof.Machine.execReserved07 s
  | .reserved08 low => Sys2Proof.Machine.execReserved08 low s
  | .reserved10 low => Sys2Proof.Machine.execReserved10 low s
  | .reserved20 low => Sys2Proof.Machine.execReserved20 low s
  | .reserved40 low => Sys2Proof.Machine.execReserved40 low s
  | .reserved80 low => Sys2Proof.Machine.execReserved80 low s
  | .psetNoiseMix x => Sys2Proof.Machine.execPsetNoiseMix x s
  | .psetEnvAttack x => Sys2Proof.Machine.execPsetEnvAttack x s
  | .psetEnvDecay x => Sys2Proof.Machine.execPsetEnvDecay x s
  | .psetEnvSustain x => Sys2Proof.Machine.execPsetEnvSustain x s
  | .psetEnvRelease x => Sys2Proof.Machine.execPsetEnvRelease x s
  | .psetOscMix x => Sys2Proof.Machine.execPsetOscMix x s
  | .psetDetune x => Sys2Proof.Machine.execPsetDetune x s
  | .psetTune x => Sys2Proof.Machine.execPsetTune x s
  | .psetNumVoices x => Sys2Proof.Machine.execPsetNumVoices x s
  | .psetVolumeTrim x => Sys2Proof.Machine.execPsetVolumeTrim x s
  | .psetOutputLevel x => Sys2Proof.Machine.execPsetOutputLevel x s
  | .psetVelocitySensitivity x => Sys2Proof.Machine.execPsetVelocitySensitivity x s
  | .psetIgnoreVelocity x => Sys2Proof.Machine.execPsetIgnoreVelocity x s
  | .psetLfoInc x => Sys2Proof.Machine.execPsetLfoInc x s
  | .psetVibrato x => Sys2Proof.Machine.execPsetVibrato x s
  | .psetPwmDepth x => Sys2Proof.Machine.execPsetPwmDepth x s
  | .psetGlideMode x => Sys2Proof.Machine.execPsetGlideMode x s
  | .psetGlideRate x => Sys2Proof.Machine.execPsetGlideRate x s
  | .psetGlideBend x => Sys2Proof.Machine.execPsetGlideBend x s
  | .psetFilterKeyTracking x => Sys2Proof.Machine.execPsetFilterKeyTracking x s
  | .psetFilterQ x => Sys2Proof.Machine.execPsetFilterQ x s
  | .psetFilterLFODepth x => Sys2Proof.Machine.execPsetFilterLFODepth x s
  | .psetFilterAttack x => Sys2Proof.Machine.execPsetFilterAttack x s
  | .psetFilterDecay x => Sys2Proof.Machine.execPsetFilterDecay x s
  | .psetFilterSustain x => Sys2Proof.Machine.execPsetFilterSustain x s
  | .psetFilterRelease x => Sys2Proof.Machine.execPsetFilterRelease x s
  | .psetFilterEnvDepth x => Sys2Proof.Machine.execPsetFilterEnvDepth x s
  | .midiNoteOff note => Sys2Proof.Machine.execMidiNoteOff note s
  | .midiNoteOn note vel => Sys2Proof.Machine.execMidiNoteOn note vel s
  | .midiCc ctl val => Sys2Proof.Machine.execMidiCc ctl val s
  | .midiPressure val => Sys2Proof.Machine.execMidiPressure val s
  | .midiBend d1 d2 => Sys2Proof.Machine.execMidiBend d1 d2 s
  | .midiIgnored07 status => Sys2Proof.Machine.execMidiIgnored07 status s
  | .midiIgnoredA => Sys2Proof.Machine.execMidiIgnoredA s
  | .midiIgnoredC => Sys2Proof.Machine.execMidiIgnoredC s
  | .midiIgnoredF => Sys2Proof.Machine.execMidiIgnoredF s
  | .ccModWheel val => Sys2Proof.Machine.execCcModWheel val s
  | .ccSustain val => Sys2Proof.Machine.execCcSustain val s
  | .ccFilterPos val => Sys2Proof.Machine.execCcFilterPos val s
  | .ccFilterNeg val => Sys2Proof.Machine.execCcFilterNeg val s
  | .ccChannelMode low => Sys2Proof.Machine.execCcChannelMode low s
  | .ccOther ctl val => Sys2Proof.Machine.execCcOther ctl val s
  | .ngReset => Sys2Proof.Machine.execNgReset s
  | .ngNext => Sys2Proof.Machine.execNgNext s
  | .envReset v e => Sys2Proof.Machine.execEnvReset v e s
  | .envAttack v e => Sys2Proof.Machine.execEnvAttack v e s
  | .envNext v e => Sys2Proof.Machine.execEnvNext v e s
  | .envRelease v e => Sys2Proof.Machine.execEnvRelease v e s
  | .envIsActive v e => Sys2Proof.Machine.execEnvIsActive v e s
  | .envIsInAttack v e => Sys2Proof.Machine.execEnvIsInAttack v e s
  | .oscReset v o => Sys2Proof.Machine.execOscReset v o s
  | .oscNext v o => Sys2Proof.Machine.execOscNext v o s
  | .oscSquare v o otherV otherO newPeriod => Sys2Proof.Machine.execOscSquare v o otherV otherO newPeriod s
  | .fltReset v => Sys2Proof.Machine.execFltReset v s
  | .fltUpdate v cutoffHz q => Sys2Proof.Machine.execFltUpdate v cutoffHz q s
  | .fltRender v x => Sys2Proof.Machine.execFltRender v x s
  | .voiceReset v => Sys2Proof.Machine.execVoiceReset v s
  | .voiceRender v input => Sys2Proof.Machine.execVoiceRender v input s
  | .voiceUpdateLfo v => Sys2Proof.Machine.execVoiceUpdateLfo v s
  | .voiceUpdatePan v => Sys2Proof.Machine.execVoiceUpdatePan v s
  | .voiceRelease v => Sys2Proof.Machine.execVoiceRelease v s
  | .synNoteOn note vel => Sys2Proof.Machine.execSynNoteOn note vel s
  | .synNoteOff note => Sys2Proof.Machine.execSynNoteOff note s
  | .synFindFree => Sys2Proof.Machine.execSynFindFree s
  | .synCalcPeriod v note => Sys2Proof.Machine.execSynCalcPeriod v note s
  | .synStartVoice v note vel => Sys2Proof.Machine.execSynStartVoice v note vel s
  | .synRestartMono note vel => Sys2Proof.Machine.execSynRestartMono note vel s
  | .synShiftQ => Sys2Proof.Machine.execSynShiftQ s
  | .synNextQ => Sys2Proof.Machine.execSynNextQ s
  | .synLegato => Sys2Proof.Machine.execSynLegato s
  | .synLfoStep => Sys2Proof.Machine.execSynLfoStep s
  | .synUpdatePeriod v => Sys2Proof.Machine.execSynUpdatePeriod v s
  | .smSet x => Sys2Proof.Machine.execSmSet x s
  | .smNext => Sys2Proof.Machine.execSmNext s
  | .synSafe x => Sys2Proof.Machine.execSynSafe x s

end Sys2Proof.Machine
end

