-- ==== Sys2Proof/Machine/Step.lean ====
section
/-! DEFINITION. One step: the oldest port word is decoded and executed (spec 30_encoding.md R80, 20_memory.md R67;
log 10). There is no program counter (10_state.md R29). -/

namespace Sys2Proof.Machine

/-- A step takes the oldest word at the port, decodes it and executes it. With nothing presented the engine waits
(48_host_commands.md R305). -/
def step (s : State) : Host.Outcome State Fault Refusal :=
  match s.port with
  | [] => .next s
  | w :: rest =>
    match decode w with
    | .ok i => exec i { s with port := rest }
    | .error (.unassignedSelectCode code) => .refused (.unassignedSelectCode code)

/-- The state with a table row's word standing at the port, before anything else that stands there, so that the very
next step executes it (log 18). -/
def State.withFetchWord (s : State) (nbits w : Nat) : State := { s with port := portWordOfBits nbits w :: s.port }

end Sys2Proof.Machine
end

