-- ==== Sys2Proof/Machine/AnyConfig.lean ====
section
/-! DEFINITION. The machine of an arbitrary configuration (spec 00_scope.md R8: a model takes each parameter as a named
configuration field so a claim can quantify over it). At the configuration in force `execIn`, `stepIn` and
`State.resetIn` are `exec`, `step` and `State.reset` (Laws/AnyConfig.lean). -/

namespace Sys2Proof.Machine

/-- The effect of an instruction under a configuration. A meaning that reads no parameter has none as argument. -/
def execIn (c : Config) (i : Instr) (s : State) : Host.Outcome State Fault Refusal :=
  match i with
  | .nop => execNop s
  | .reset => execResetIn c s
  | .alloc blockSize sampleRate => execAllocIn c blockSize sampleRate s
  | .dealloc => execDealloc s
  | .pset idx wdata => execPset idx wdata s
  | .midi b0 b1 b2 => execMidiIn c b0 b1 b2 s
  | .render stereo n => execRenderIn c stereo n s
  | .reserved07 => execReserved07 s
  | .reserved08 low => execReserved08 low s
  | .reserved10 low => execReserved10 low s
  | .reserved20 low => execReserved20 low s
  | .reserved40 low => execReserved40 low s
  | .reserved80 low => execReserved80 low s
  | .psetNoiseMix x => execPsetNoiseMix x s
  | .psetEnvAttack x => execPsetEnvAttack x s
  | .psetEnvDecay x => execPsetEnvDecay x s
  | .psetEnvSustain x => execPsetEnvSustain x s
  | .psetEnvRelease x => execPsetEnvRelease x s
  | .psetOscMix x => execPsetOscMix x s
  | .psetDetune x => execPsetDetune x s
  | .psetTune x => execPsetTune x s
  | .psetNumVoices x => execPsetNumVoices x s
  | .psetVolumeTrim x => execPsetVolumeTrim x s
  | .psetOutputLevel x => execPsetOutputLevel x s
  | .psetVelocitySensitivity x => execPsetVelocitySensitivity x s
  | .psetIgnoreVelocity x => execPsetIgnoreVelocity x s
  | .psetLfoInc x => execPsetLfoInc x s
  | .psetVibrato x => execPsetVibrato x s
  | .psetPwmDepth x => execPsetPwmDepth x s
  | .psetGlideMode x => execPsetGlideMode x s
  | .psetGlideRate x => execPsetGlideRate x s
  | .psetGlideBend x => execPsetGlideBend x s
  | .psetFilterKeyTracking x => execPsetFilterKeyTracking x s
  | .psetFilterQ x => execPsetFilterQ x s
  | .psetFilterLFODepth x => execPsetFilterLFODepth x s
  | .psetFilterAttack x => execPsetFilterAttack x s
  | .psetFilterDecay x => execPsetFilterDecay x s
  | .psetFilterSustain x => execPsetFilterSustain x s
  | .psetFilterRelease x => execPsetFilterRelease x s
  | .psetFilterEnvDepth x => execPsetFilterEnvDepth x s
  | .midiNoteOff note => execMidiNoteOffIn c note s
  | .midiNoteOn note vel => execMidiNoteOnIn c note vel s
  | .midiCc ctl val => execMidiCcIn c ctl val s
  | .midiPressure val => execMidiPressureIn c val s
  | .midiBend d1 d2 => execMidiBendIn c d1 d2 s
  | .midiIgnored07 status => execMidiIgnored07 status s
  | .midiIgnoredA => execMidiIgnoredA s
  | .midiIgnoredC => execMidiIgnoredC s
  | .midiIgnoredF => execMidiIgnoredF s
  | .ccModWheel val => execCcModWheelIn c val s
  | .ccSustain val => execCcSustainIn c val s
  | .ccFilterPos val => execCcFilterPosIn c val s
  | .ccFilterNeg val => execCcFilterNegIn c val s
  | .ccChannelMode low => execCcChannelModeIn c low s
  | .ccOther ctl val => execCcOther ctl val s
  | .ngReset => execNgResetIn c s
  | .ngNext => execNgNextIn c s
  | .envReset v e => execEnvReset v e s
  | .envAttack v e => execEnvAttackIn c v e s
  | .envNext v e => execEnvNextIn c v e s
  | .envRelease v e => execEnvRelease v e s
  | .envIsActive v e => execEnvIsActiveIn c v e s
  | .envIsInAttack v e => execEnvIsInAttackIn c v e s
  | .oscReset v o => execOscReset v o s
  | .oscNext v o => execOscNextIn c v o s
  | .oscSquare v o otherV otherO newPeriod => execOscSquareIn c v o otherV otherO newPeriod s
  | .fltReset v => execFltReset v s
  | .fltUpdate v cutoffHz q => execFltUpdateIn c v cutoffHz q s
  | .fltRender v x => execFltRenderIn c v x s
  | .voiceReset v => execVoiceResetIn c v s
  | .voiceRender v input => execVoiceRenderIn c v input s
  | .voiceUpdateLfo v => execVoiceUpdateLfoIn c v s
  | .voiceUpdatePan v => execVoiceUpdatePanIn c v s
  | .voiceRelease v => execVoiceRelease v s
  | .synNoteOn note vel => execSynNoteOnIn c note vel s
  | .synNoteOff note => execSynNoteOffIn c note s
  | .synFindFree => execSynFindFreeIn c s
  | .synCalcPeriod v note => execSynCalcPeriodIn c v note s
  | .synStartVoice v note vel => execSynStartVoiceIn c v note vel s
  | .synRestartMono note vel => execSynRestartMonoIn c note vel s
  | .synShiftQ => execSynShiftQ s
  | .synNextQ => execSynNextQ s
  | .synLegato => execSynLegato s
  | .synLfoStep => execSynLfoStepIn c s
  | .synUpdatePeriod v => execSynUpdatePeriodIn c v s
  | .smSet x => execSmSet x s
  | .smNext => execSmNext s
  | .synSafe x => execSynSafeIn c x s

/-- One step under a configuration. -/
def stepIn (c : Config) (s : State) : Host.Outcome State Fault Refusal :=
  match s.port with
  | [] => .next s
  | w :: rest =>
    match decodeIn c w with
    | .ok i => execIn c i { s with port := rest }
    | .error (.unassignedSelectCode code) => .refused (.unassignedSelectCode code)

end Sys2Proof.Machine
end

