-- ==== Sys2Proof/Safety.lean ====
section
/-! DEFINITION. What counts as a safe run of the engine: the host's boot obligations as a predicate (spec
70_reset_and_hazards.md R356), the invariant every step keeps (10_state.md R45; 20_memory.md R60; 45_synth_render.md
R219), and the precondition on oscillator periods that the engine does not check (42_oscillator.md R146). -/

namespace Sys2Proof.Machine

/-- Every parameter register has been written, with a value in range (R324, R326; boot step 2 of R356). -/
def Params.ready (c : Config) (p : Params) : Bool := ParamId.all.all (fun id => p.written id && p.inRange c id)

/-- The host has done steps 1 and 2 of R356: it may RENDER. -/
def State.ready (s : State) : Bool := s.allocated && s.p.ready cfg

/-- A word is finite and lies in `[-1.0, 1.0]` (R219, postcondition). -/
def wordSafe (x : F32) : Bool := F32.one.neg.le x && x.le F32.one

/-- A legal identity: free, a note number, or SUSTAIN (R27). -/
def noteLegal (note : BitVec 8) : Bool := note == cfg.sustain || decide (note.toNat < 128)

/-- The invariant of the engine. -/
structure State.Inv (s : State) : Prop where
  outL_wf : Memory.wf s.outL
  outR_wf : Memory.wf s.outR
  outL_safe : ∀ e ∈ s.outL, wordSafe e.2 = true
  outR_safe : ∀ e ∈ s.outR, wordSafe e.2 = true
  notes : ∀ v, noteLegal (s.voice v).note = true
  lastNote : s.lastNote.toNat < 128
  lfoStep : 0 ≤ s.lfoStep ∧ s.lfoStep ≤ cfg.lfoMax
  ramp : s.sm.count ≤ s.sm.len
  rate : sampleRateInRange cfg s.sampleRate = true

/-- `PeriodTooSmall` (60_exceptions.md R325): a recompute on these registers would run with a half-period below 3
samples. The engine does not look at it; a claim that wants R325's refusals excludes such states by this. -/
def Oscillator.periodTooSmall (o : Oscillator) : Bool := (o.period.mul o.modulation).lt cfg.minPeriod

/-- A level or a target an envelope can have outside an attack's first jump (41_envelope.md R122 (a), (b)). -/
def levelInRange (x : F32) : Bool := x.ge F32.zero && x.le F32.two

/-- The coefficients are in the ranges of R326 (b), and level, target and multiplier where R122 keeps them. -/
def Envelope.inRange (e : Envelope) : Bool :=
  levelInRange e.level && levelInRange e.target && multiplierInRange e.multiplier &&
  multiplierInRange e.attackMul && multiplierInRange e.decayMul && sustainInRange e.sustainLevel &&
  multiplierInRange e.releaseMul

/-- What R322, R324 and R326 ask of an instruction that would read the parameter registers `reads`: refused, naming one
of them, when one is not written; when all are written and one is out of range, refused naming one that is; when all are
written and in range, `otherwise`. Which register is named is left open (log 21). -/
def ParamPreconditions (i : Instr) (s : State) (reads : ParamId → Prop) (otherwise : Prop) : Prop :=
  ((∃ id, reads id ∧ s.p.written id = false) →
    ∃ id, reads id ∧ s.p.written id = false ∧ exec i s = .refused (.unwrittenParam id)) ∧
  ((∀ id, reads id → s.p.written id = true) → (∃ id, reads id ∧ s.p.inRange cfg id = false) →
    ∃ id, reads id ∧ s.p.inRange cfg id = false ∧ exec i s = .refused (.paramOutOfRange (.param id))) ∧
  ((∀ id, reads id → s.p.written id = true ∧ s.p.inRange cfg id = true) → otherwise)

/-- The instruction is one of the PSET rows (R304). -/
def isPset (i : Instr) : Bool :=
  match i with
  | .pset _ _ | .psetNoiseMix _ | .psetEnvAttack _ | .psetEnvDecay _ | .psetEnvSustain _ | .psetEnvRelease _ => true
  | .psetOscMix _ | .psetDetune _ | .psetTune _ | .psetNumVoices _ | .psetVolumeTrim _ => true
  | .psetOutputLevel _ | .psetVelocitySensitivity _ | .psetIgnoreVelocity _ | .psetLfoInc _ => true
  | .psetVibrato _ | .psetPwmDepth _ | .psetGlideMode _ | .psetGlideRate _ | .psetGlideBend _ => true
  | .psetFilterKeyTracking _ | .psetFilterQ _ | .psetFilterLFODepth _ | .psetFilterAttack _ => true
  | .psetFilterDecay _ | .psetFilterSustain _ | .psetFilterRelease _ | .psetFilterEnvDepth _ => true
  | _ => false

end Sys2Proof.Machine
end

