-- ==== Sys2Proof/Certificates/Slice0/Obligations.lean ====
section
/-! DEFINITION. The statements for the provers. Each says in Lean what its entry of OBLIGATIONS.json says in words.
Constants of the rules are written as their binary32 patterns, so that a statement does not lean on the configuration
it is about; `cfg.sin`, `cfg.cos`, `cfg.exp`, `cfg.pow` are the free functions of 00_scope.md R9. A clause that quantifies
over a configuration `c` (R8) is about `execIn c`, `stepIn c`, `decodeIn c` and `State.resetIn c`, which at `cfg` are
`exec`, `step`, `decode` and `State.reset` (Laws/AnyConfig.lean). The fields `result` and `port` are the model's own
(logs 10 and 11). -/

section Obligations

open Sys2Proof Sys2Proof.Machine

/-! ## Configuration and arithmetic -/

/-- R7 and R8: the structural parameters and the defaults of the numeric ones. -/
def Obligations.ConfigurationDefaults : Prop :=
  (∀ b : Bank Voice, b.toList.length = 8) ∧ cfg.silence = ⟨0x38D1B717⟩ ∧ cfg.envAttackTarget = ⟨0x40000000⟩ ∧
  cfg.envSwitchSum = ⟨0x40400000⟩ ∧ cfg.sawLeak = ⟨0x3F7F3B64⟩ ∧ cfg.cutoffMin = ⟨0x41F00000⟩ ∧
  cfg.cutoffMax = ⟨0x469C4000⟩ ∧ cfg.qDiv = ⟨0x41F00000⟩ ∧ cfg.panSpan = ⟨0x41C00000⟩ ∧
  cfg.minPeriod = ⟨0x40C00000⟩ ∧ cfg.ccChannelMode = 120 ∧
  cfg.noiseSeed = 22222 ∧ cfg.noiseMul = 196314165 ∧ cfg.noiseInc = 907633515 ∧ cfg.noiseMask = 0x007FFFFF ∧
  cfg.noiseBias = 0x40000000 ∧ cfg.noiseOffset = ⟨0x40400000⟩ ∧ cfg.pi = ⟨0x40490FDB⟩ ∧
  cfg.piOver4 = ⟨0x3F490FDB⟩ ∧ cfg.twoPi = ⟨0x40C90FDB⟩ ∧ cfg.oscOriginEps = ⟨0x3089705F⟩ ∧
  cfg.sustain.toInt = -1 ∧ cfg.panCentre = 60 ∧ cfg.panReset = ⟨0x3F34FDF4⟩ ∧ cfg.analog = ⟨0x3B03126F⟩ ∧
  cfg.semi = ⟨0x3D6C9820⟩ ∧ cfg.semiRatio = ⟨0x3F879C7D⟩ ∧ cfg.lfoMax = 32 ∧ cfg.filterZip = ⟨0x3BA3D70A⟩ ∧
  cfg.pbCoeff = ⟨0x376C97A1⟩ ∧ cfg.pressureCoeff = ⟨0x38D1B717⟩ ∧ cfg.modwheelCoeff = ⟨0x36A7C5AC⟩ ∧
  cfg.filterCcPos = ⟨0x3CA3D70A⟩ ∧ cfg.filterCcNeg = ⟨0xBCF5C28F⟩ ∧ cfg.ccModwheel = 1 ∧ cfg.ccSustain = 64 ∧
  cfg.ccFilterPos = 74 ∧ cfg.ccFilterNeg = 75 ∧ cfg.pedalThreshold = 64 ∧ cfg.velFixed = 80 ∧
  cfg.velA = ⟨0x3B83126F⟩ ∧ cfg.velB = 64 ∧ cfg.velC = ⟨0x41000000⟩ ∧ cfg.velCentre = 64 ∧
  cfg.findBound = ⟨0x42C80000⟩ ∧ cfg.outRampSeconds = ⟨0x3D4CCCCD⟩ ∧ cfg.safeClamp = ⟨0x3F800000⟩ ∧
  cfg.safeZero = ⟨0x40000000⟩ ∧ cfg.fltPowerOnCutoff = ⟨0x43480000⟩ ∧ cfg.fsPowerOn = ⟨0x472C4400⟩ ∧
  cfg.fenvCombine = .sum ∧ cfg.lpf4Realisation = .ladder ∧ cfg.bqQMin = ⟨0x3F3504F3⟩ ∧
  cfg.bqQMax = ⟨0x41000000⟩ ∧ cfg.outCapacity = 2 ^ 23 - 1

/-- R9: the six named properties of the free functions, and FLOOR exact: an integral value, at most the operand and
less than one below it; a NaN or an infinity maps to itself. -/
def Obligations.NamedFunctionProperties : Prop :=
  cfg.sin ⟨0x00000000⟩ = ⟨0x00000000⟩ ∧ cfg.sin ⟨0x80000000⟩ = ⟨0x80000000⟩ ∧
  cfg.cos ⟨0x00000000⟩ = ⟨0x3F800000⟩ ∧ cfg.cos ⟨0x80000000⟩ = ⟨0x3F800000⟩ ∧
  cfg.exp ⟨0x00000000⟩ = ⟨0x3F800000⟩ ∧ cfg.exp ⟨0x80000000⟩ = ⟨0x3F800000⟩ ∧
  (∀ a, cfg.pow a ⟨0x00000000⟩ = ⟨0x3F800000⟩ ∧ cfg.pow a ⟨0x80000000⟩ = ⟨0x3F800000⟩) ∧
  (∀ x : F32, cfg.sin x.neg = (cfg.sin x).neg) ∧
  (∀ x : F32, x.isNaN = false → (cfg.exp x).gt ⟨0x00000000⟩ = true ∨ cfg.exp x = ⟨0x00000000⟩) ∧
  (∀ x : F32, x.isFinite = true →
    x.floor.isFinite = true ∧ (∃ n : Int, x.floor.units = n * 2 ^ 149) ∧ x.floor.units ≤ x.units ∧
      x.units < x.floor.units + 2 ^ 149) ∧
  (∀ x : F32, x.isFinite = false → x.floor = x)

/-- R11, R10: `+`, `-`, `*` and `/` of finite operands round the exact result to the nearest binary32 value, ties to the
even fraction, and overflow to an infinity from halfway above the largest finite value on. Values are counted in units
of 2^-149. -/
def Obligations.ArithmeticRoundsToNearestEven : Prop :=
  ∀ a b : F32, a.isFinite = true → b.isFinite = true →
    (let n := a.units + b.units
     let r := a.add b
     (r.isFinite = true → ∀ y : F32, y.isFinite = true →
        |r.units - n| ≤ |y.units - n| ∧ (|r.units - n| = |y.units - n| → y.units = r.units ∨ r.mag % 2 = 0)) ∧
     (r.isInf = true ↔ (2 ^ 25 - 1) * 2 ^ 253 ≤ 2 * |n|) ∧ r.isNaN = false) ∧
    a.sub b = a.add b.neg ∧
    (let n := a.units * b.units
     let r := a.mul b
     (r.isFinite = true → ∀ y : F32, y.isFinite = true →
        |r.units * 2 ^ 149 - n| ≤ |y.units * 2 ^ 149 - n| ∧
          (|r.units * 2 ^ 149 - n| = |y.units * 2 ^ 149 - n| → y.units = r.units ∨ r.mag % 2 = 0)) ∧
     (r.isInf = true ↔ (2 ^ 25 - 1) * 2 ^ 253 * 2 ^ 149 ≤ 2 * |n|) ∧ r.isNaN = false) ∧
    (b.isZero = false →
      let n := a.units * 2 ^ 149
      let r := a.div b
      (r.isFinite = true → ∀ y : F32, y.isFinite = true →
         |r.units * b.units - n| ≤ |y.units * b.units - n| ∧
           (|r.units * b.units - n| = |y.units * b.units - n| → y.units = r.units ∨ r.mag % 2 = 0)) ∧
      (r.isInf = true ↔ (2 ^ 25 - 1) * 2 ^ 253 * |b.units| ≤ 2 * |n|) ∧ r.isNaN = false)

/-- R11, R12: NaN operands give NaN and make every comparison false; comparisons of finite operands order their values
(the zeros are equal), infinities stand at the ends; the signs of zero sums, of products and of quotients; operations with
an infinity; invalid operations give NaN, division by zero gives an infinity; subtraction adds the negated operand and
unary minus flips the sign bit alone; the conversion of an integer of magnitude below 2^24 is exact; `clamp` as written.
-/
def Obligations.ArithmeticSpecialValues : Prop :=
  (∀ a b : F32, a.isNaN = true ∨ b.isNaN = true →
    (a.add b).isNaN = true ∧ (a.sub b).isNaN = true ∧ (a.mul b).isNaN = true ∧ (a.div b).isNaN = true ∧
    a.lt b = false ∧ a.le b = false ∧ a.gt b = false ∧ a.ge b = false ∧ a.feq b = false) ∧
  (∀ a b : F32, a.sub b = a.add b.neg ∧ a.gt b = b.lt a ∧ a.ge b = b.le a) ∧
  (∀ a b : F32, a.isFinite = true → b.isFinite = true →
    (a.lt b = true ↔ a.units < b.units) ∧ (a.le b = true ↔ a.units ≤ b.units) ∧
    (a.feq b = true ↔ a.units = b.units) ∧
    (a.units + b.units = 0 → (a.add b).isZero = true ∧ (a.add b).sign = (a.sign && b.sign)) ∧
    (a.mul b).sign = (a.sign != b.sign) ∧ (a.isZero = true ∨ b.isZero = true → (a.mul b).isZero = true) ∧
    (b.isZero = false → (a.div b).sign = (a.sign != b.sign) ∧ (a.isZero = true → (a.div b).isZero = true))) ∧
  (∀ a b : F32, a.isInf = true → b.isFinite = true →
    a.lt b = a.sign ∧ a.le b = a.sign ∧ b.lt a = !a.sign ∧ b.le a = !a.sign ∧ a.feq b = false ∧ b.feq a = false ∧
    a.add b = a ∧ b.add a = a ∧
    (a.div b).isInf = true ∧ (a.div b).sign = (a.sign != b.sign) ∧
    (b.div a).isZero = true ∧ (b.div a).sign = (b.sign != a.sign) ∧
    (b.isZero = false → (a.mul b).isInf = true ∧ (a.mul b).sign = (a.sign != b.sign) ∧
      (b.mul a).isInf = true ∧ (b.mul a).sign = (b.sign != a.sign)) ∧
    (b.isZero = true → (a.mul b).isNaN = true ∧ (b.mul a).isNaN = true)) ∧
  (∀ a b : F32, a.isInf = true → b.isInf = true →
    a.lt b = (a.sign && !b.sign) ∧ a.le b = (a.sign || !b.sign) ∧ a.feq b = (a.sign == b.sign) ∧
    (a.sign = b.sign → a.add b = a) ∧ (a.add b).isNaN = (a.sign != b.sign) ∧
    (a.sub b).isNaN = (a.sign == b.sign) ∧ (a.div b).isNaN = true ∧
    (a.mul b).isInf = true ∧ (a.mul b).sign = (a.sign != b.sign)) ∧
  (∀ a b : F32, a.isZero = true → b.isZero = true → (a.div b).isNaN = true ∧ a.feq b = true) ∧
  (∀ a b : F32, a.isFinite = true → a.isZero = false → b.isZero = true →
    (a.div b).isInf = true ∧ (a.div b).sign = (a.sign != b.sign)) ∧
  (∀ a : F32, a.neg.sign = !a.sign ∧ a.neg.mag = a.mag) ∧
  (∀ n : Int, n.natAbs < 2 ^ 24 → (F32.ofInt n).isFinite = true ∧ (F32.ofInt n).units = n * 2 ^ 149) ∧
  (∀ x lo hi : F32, x.clamp lo hi = if x.lt lo = true then lo else if x.gt hi = true then hi else x) ∧
  (∀ x lo hi : F32, x.isNaN = true → x.clamp lo hi = x)

/-! ## Power-on and invariant -/

/-- R350 with the table of R46: the power-on values of every register, and that no parameter register and no word of an
output buffer holds a value (the marks of logs 6 and 14). The coefficient registers are those of the ladder, the
realisation in force (R175; log 3). For every configuration (R8) the registers a parameter enters hold its value, and the
others are the same. -/
def Obligations.PowerOnState : Prop :=
  State.reset.ng = 0x000056CE ∧
  (∀ v : VoiceIx,
    (State.reset.voice v).note = 0 ∧ (State.reset.voice v).saw = ⟨0⟩ ∧
    (State.reset.voice v).panLeft = ⟨0x3F34FDF4⟩ ∧ (State.reset.voice v).panRight = ⟨0x3F34FDF4⟩ ∧
    (State.reset.voice v).period = ⟨0⟩ ∧ (State.reset.voice v).target = ⟨0⟩ ∧
    (State.reset.voice v).glideRate = ⟨0⟩ ∧ (State.reset.voice v).cutoff = ⟨0⟩ ∧
    (State.reset.voice v).filterMod = ⟨0⟩ ∧ (State.reset.voice v).filterQ = ⟨0⟩ ∧
    (State.reset.voice v).pitchBend = ⟨0⟩ ∧ (State.reset.voice v).filterEnvDepth = ⟨0⟩ ∧
    (State.reset.voice v).env = ⟨⟨0⟩, ⟨0⟩, ⟨0⟩, ⟨0⟩, ⟨0⟩, ⟨0⟩, ⟨0⟩⟩ ∧
    (State.reset.voice v).fenv = ⟨⟨0⟩, ⟨0⟩, ⟨0⟩, ⟨0⟩, ⟨0⟩, ⟨0⟩, ⟨0⟩⟩ ∧
    (∀ o, ((State.reset.voice v).oscOf o).period = ⟨0⟩ ∧ ((State.reset.voice v).oscOf o).amplitude = ⟨0x3F800000⟩ ∧
      ((State.reset.voice v).oscOf o).modulation = ⟨0x3F800000⟩ ∧ ((State.reset.voice v).oscOf o).phase = ⟨0⟩ ∧
      ((State.reset.voice v).oscOf o).phaseMax = ⟨0⟩ ∧ ((State.reset.voice v).oscOf o).inc = ⟨0⟩ ∧
      ((State.reset.voice v).oscOf o).sin0 = ⟨0⟩ ∧ ((State.reset.voice v).oscOf o).sin1 = ⟨0⟩ ∧
      ((State.reset.voice v).oscOf o).dsin = ⟨0⟩ ∧ ((State.reset.voice v).oscOf o).dc = ⟨0⟩) ∧
    (State.reset.voice v).filter.cutoff = ⟨0x43480000⟩ ∧ (State.reset.voice v).filter.res = ⟨0⟩ ∧
    (State.reset.voice v).filter.coef =
      .ladder ((F32.mk 0x3F800000).sub
          (cfg.exp ((((F32.mk 0x40C90FDB).mul ⟨0x43480000⟩).div ⟨0x472C4400⟩).neg)))
        ((F32.mk 0x40800000).mul ⟨0⟩) ∧
    (State.reset.voice v).filter.poles = ⟨⟨0⟩, ⟨0⟩, ⟨0⟩, ⟨0⟩⟩) ∧
  State.reset.sampleRate = ⟨0x472C4400⟩ ∧ State.reset.allocated = false ∧ State.reset.lfo = ⟨0⟩ ∧
  State.reset.lfoStep = 0 ∧ State.reset.filterZip = ⟨0⟩ ∧ State.reset.lastNote = 0 ∧
  State.reset.pitchBend = ⟨0x3F800000⟩ ∧ State.reset.modWheel = ⟨0⟩ ∧ State.reset.pressure = ⟨0⟩ ∧
  State.reset.filterCtl = ⟨0⟩ ∧ State.reset.sustainPedal = false ∧
  State.reset.sm = ⟨⟨0⟩, ⟨0⟩, ⟨0⟩, 0, 0⟩ ∧
  (∀ id, State.reset.p.written id = false) ∧
  (∀ k, outWord? State.reset.outL k = none ∧ outWord? State.reset.outR k = none) ∧
  (∀ c : Config,
    State.resetIn c =
      { State.reset with ng := c.noiseSeed, sampleRate := c.fsPowerOn, voices := (State.resetIn c).voices } ∧
    ∀ v : VoiceIx, (State.resetIn c).voice v =
      { State.reset.voice v with
        panLeft := c.panReset
        panRight := c.panReset
        filter := { (State.reset.voice v).filter with
          cutoff := c.fltPowerOnCutoff
          coef := lpf4Coef c c.fsPowerOn c.fltPowerOnCutoff ⟨0⟩ } })

/-- The invariant of Safety.lean holds at power-on, and the canonical form of both buffers at the power-on of every
configuration. -/
def Obligations.InvariantAtReset : Prop :=
  State.reset.Inv ∧
  ∀ c : Config, Memory.wfIn c (State.resetIn c).outL ∧ Memory.wfIn c (State.resetIn c).outR

/-- Every step keeps the invariant, from every state that meets it: buffers in canonical form below OUT_CAPACITY with
finite words in `[-1, 1]` (R60, R219), legal note registers (R27), `lastNote` a note number, `lfoStep` in 0 to 32 (R16),
the ramp counter at most the ramp length (R16), the sample rate legal (R326 (c)). Under every configuration a step keeps
both buffers in canonical form below that configuration's OUT_CAPACITY (R8, R60; that RENDER of a longer block is refused
is the model's choice, log 23). -/
def Obligations.StepKeepsInvariant : Prop :=
  (∀ s s' : State, s.Inv → step s = .next s' → s'.Inv) ∧
  (∀ (c : Config) (s s' : State), Memory.wfIn c s.outL → Memory.wfIn c s.outR → stepIn c s = .next s' →
    Memory.wfIn c s'.outL ∧ Memory.wfIn c s'.outR)

/-! ## Decoding and stepping -/

/-- Decoding the encoding of a well-formed instruction gives it back, for all 88 constructors and every operand; also
under every configuration, whatever controller numbers it gives the rows of R85 (R8). -/
def Obligations.DecodeEncodeRoundTrip : Prop :=
  (∀ i : Instr, i.wellFormed = true → decode (encode i) = .ok i) ∧
  ∀ (c : Config) (i : Instr), i.wellFormedIn c = true → decodeIn c (encodeIn c i) = .ok i

/-- R87, R88, R91: every command word decodes, and to a well-formed instruction; the select codes that name a
micro-operation are the 33 of the table, and every other code is rejected by name (log 11). -/
def Obligations.DecodingIsTotal : Prop :=
  (∀ cmd wdata : Word, ∃ i, decode (.command cmd wdata) = .ok i ∧ i.wellFormed = true) ∧
  (∀ (code : BitVec 8) (o : SelectOperands),
      (code.toNat ∈ [0x10, 0x11, 0x20, 0x21, 0x22, 0x23, 0x24, 0x25, 0x30, 0x31, 0x32, 0x40, 0x41, 0x42] ++
          [0x50, 0x51, 0x52, 0x53, 0x54, 0x60, 0x61, 0x62, 0x63, 0x64, 0x65, 0x66, 0x67, 0x68, 0x69] ++
          [0x6A, 0x6B, 0x6C, 0x6D] →
        ∃ i, decode (.select code o) = .ok i ∧ i.wellFormed = true) ∧
      (code.toNat ∉ [0x10, 0x11, 0x20, 0x21, 0x22, 0x23, 0x24, 0x25, 0x30, 0x31, 0x32, 0x40, 0x41, 0x42] ++
          [0x50, 0x51, 0x52, 0x53, 0x54, 0x60, 0x61, 0x62, 0x63, 0x64, 0x65, 0x66, 0x67, 0x68, 0x69] ++
          [0x6A, 0x6B, 0x6C, 0x6D] →
        decode (.select code o) = .error (.unassignedSelectCode code)))

/-- R81 to R83, R86: which bits of a command word are ignored. `wdata` by every opcode but ALLOC and PSET; `imm24` by NOP,
RESET, DEALLOC and the reserved opcodes; bits 23:8 by PSET; the channel nibble and the top bits of the data bytes by
MIDI; the data word above its low byte by PSET of a `u8` register (8, 16), and above its low bit by PSET of the `bool`
register (12). -/
def Obligations.IgnoredBitsAreIgnored : Prop :=
  ∀ cmd wdata wdata' : Word,
    (cmd.extractLsb' 24 8 ≠ 2 → cmd.extractLsb' 24 8 ≠ 4 → decodeCommand cmd wdata = decodeCommand cmd wdata') ∧
    (cmd.extractLsb' 24 8 = 0 ∨ cmd.extractLsb' 24 8 = 1 ∨ cmd.extractLsb' 24 8 = 3 ∨
        7 ≤ (cmd.extractLsb' 24 8).toNat →
      decodeCommand cmd wdata = decodeCommand (cmd &&& 0xFF000000) wdata') ∧
    (cmd.extractLsb' 24 8 = 4 →
      decodeCommand cmd wdata = decodeCommand (cmd &&& 0xFF0000FF) wdata ∧
      (cmd.extractLsb' 0 8 = 8 ∨ cmd.extractLsb' 0 8 = 16 →
        decodeCommand cmd wdata = decodeCommand cmd (wdata &&& 0xFF)) ∧
      (cmd.extractLsb' 0 8 = 12 → decodeCommand cmd wdata = decodeCommand cmd (wdata &&& 1))) ∧
    (cmd.extractLsb' 24 8 = 5 → decodeCommand cmd wdata = decodeCommand (cmd &&& 0xFFF07F7F) wdata')

/-- Words written out in the spec's examples decode to the instructions they stand for (R89, R210, R240 to R242, R253,
R300 to R304). -/
def Obligations.SpecWordsDecode : Prop :=
  decode (.command 0x00000000 0) = .ok .nop ∧
  decode (.command 0x01000000 0) = .ok .reset ∧
  decode (.command 0x02000200 0x472C4400) = .ok (.alloc 512 ⟨0x472C4400⟩) ∧
  decode (.command 0x03000000 0) = .ok .dealloc ∧
  decode (.command 0x04000007 0x45800000) = .ok (.psetTune ⟨0x45800000⟩) ∧
  decode (.command 0x04000008 0x00000001) = .ok (.psetNumVoices 1) ∧
  decode (.command 0x05903C64 0) = .ok (.midiNoteOn 60 100) ∧
  decode (.command 0x05803C00 0) = .ok (.midiNoteOff 60) ∧
  decode (.command 0x05B07B00 0) = .ok (.ccChannelMode 3) ∧
  decode (.command 0x06800004 0) = .ok (.render true 4) ∧
  decode (.command 0x06000004 0) = .ok (.render false 4) ∧
  decode (.select 0x11 ⟨0, 0, 0⟩) = .ok .ngNext ∧
  decode (.select 0x6D ⟨0, 0x3FC00000, 0⟩) = .ok (.synSafe ⟨0x3FC00000⟩)

/-- A step runs the decoded instruction: the oldest port word is taken from the port and executed on the state without
it (R67, R80; the port is log 10). With an empty port the engine waits; an unassigned select code is refused by name
(log 11). There is no program counter (R29). The same under every configuration, and at the one in force `execIn` and
`stepIn` are `exec` and `step` (R8). -/
def Obligations.StepExecutesOldestWord : Prop :=
  (∀ (s : State) (w : PortWord) (rest : List PortWord) (i : Instr), s.port = w :: rest → decode w = .ok i →
    step s = exec i { s with port := rest }) ∧
  (∀ s : State, s.port = [] → step s = .next s) ∧
  (∀ (s : State) (w : PortWord) (rest : List PortWord) (code : BitVec 8), s.port = w :: rest →
    decode w = .error (.unassignedSelectCode code) → step s = .refused (.unassignedSelectCode code)) ∧
  (∀ (c : Config) (s : State) (w : PortWord) (rest : List PortWord) (i : Instr), s.port = w :: rest →
    decodeIn c w = .ok i → stepIn c s = execIn c i { s with port := rest }) ∧
  (∀ (c : Config) (s : State), s.port = [] → stepIn c s = .next s) ∧
  (∀ (i : Instr) (s : State), execIn cfg i s = exec i s) ∧
  (∀ s : State, stepIn cfg s = step s)

/-! ## Whole-machine rules -/

/-- R320, R322: nothing faults; a refusal names one of the precondition classes and comes from an instruction that has
the precondition; every other instruction completes. OSC.NEXT and VOICE.RENDER complete because a too small period is
not refused: R325's second treatment, the model's choice (log 8). -/
def Obligations.OnlyPreconditionsRefuse : Prop :=
  ∀ (i : Instr) (s : State),
    (∀ f, exec i s ≠ .fault f) ∧
    (∀ r, exec i s = .refused r →
      (r = .notAllocated ∧ ∃ stereo n, i = .render stereo n) ∨ (∃ id, r = .unwrittenParam id) ∨
        (∃ what, r = .paramOutOfRange what)) ∧
    (match i with
     | .reset | .alloc _ _ | .midi _ _ _ | .render _ _ | .midiNoteOff _ | .midiNoteOn _ _ => True
     | .synNoteOn _ _ | .synNoteOff _ | .synCalcPeriod _ _ | .synStartVoice _ _ _ | .synRestartMono _ _ => True
     | .synLfoStep | .synUpdatePeriod _ => True
     | _ => ∃ t, exec i s = .next t)

/-- R41, R60, R304: only a PSET writes a parameter register, and only RENDER the output buffers. -/
def Obligations.ParamAndBufferWriters : Prop :=
  ∀ (i : Instr) (s t : State), exec i s = .next t →
    (isPset i = false → t.p = s.p) ∧
    ((∀ stereo n, i ≠ .render stereo n) → t.outL = s.outL ∧ t.outR = s.outR)

/-- R38, R39, R42: which instructions write the Synth-level registers, the output-level smoother and the stored flags; and
no instruction touches the port (the model's own field, log 10). -/
def Obligations.SynthRegisterWriters : Prop :=
  ∀ (i : Instr) (s t : State), exec i s = .next t →
    t.port = s.port ∧
    ((∀ b r, i ≠ .alloc b r) → t.sampleRate = s.sampleRate) ∧
    ((∀ b r, i ≠ .alloc b r) → i ≠ .dealloc → t.allocated = s.allocated) ∧
    (i ≠ .reset → i ≠ .synLfoStep → (∀ b n, i ≠ .render b n) →
      t.lfo = s.lfo ∧ t.lfoStep = s.lfoStep ∧ t.filterZip = s.filterZip) ∧
    (i ≠ .reset → (∀ n v, i ≠ .midiNoteOn n v) → (∀ a b c, i ≠ .midi a b c) → (∀ n v, i ≠ .synNoteOn n v) →
      (∀ v n w, i ≠ .synStartVoice v n w) → t.lastNote = s.lastNote) ∧
    (i ≠ .reset → (∀ a b, i ≠ .midiBend a b) → (∀ a b c, i ≠ .midi a b c) → t.pitchBend = s.pitchBend) ∧
    (i ≠ .reset → (∀ a, i ≠ .midiPressure a) → (∀ a b c, i ≠ .midi a b c) → t.pressure = s.pressure) ∧
    (i ≠ .reset → (∀ a, i ≠ .ccModWheel a) → (∀ a b, i ≠ .midiCc a b) → (∀ a b c, i ≠ .midi a b c) →
      t.modWheel = s.modWheel) ∧
    (i ≠ .reset → (∀ a, i ≠ .ccFilterPos a) → (∀ a, i ≠ .ccFilterNeg a) → (∀ a b, i ≠ .midiCc a b) →
      (∀ a b c, i ≠ .midi a b c) → t.filterCtl = s.filterCtl) ∧
    (i ≠ .reset → (∀ a, i ≠ .ccSustain a) → (∀ a, i ≠ .ccChannelMode a) → (∀ a b, i ≠ .midiCc a b) →
      (∀ a b c, i ≠ .midi a b c) → t.sustainPedal = s.sustainPedal) ∧
    (i ≠ .reset → i ≠ .ngReset → i ≠ .ngNext → (∀ b n, i ≠ .render b n) → t.ng = s.ng) ∧
    (i ≠ .reset → (∀ x, i ≠ .smSet x) → i ≠ .smNext → (∀ b n, i ≠ .render b n) → t.sm = s.sm)

/-- R28, R60, R61: a word written to an output buffer is read back, every other word is left alone, the canonical form
is kept, under any configuration exactly by the writes below its OUT_CAPACITY, and two buffers in canonical form that hold the same words are the same buffer; a write of one voice bank leaves
the other seven and every other register alone. -/
def Obligations.StorageLaws : Prop :=
  (∀ (id : OutId) (b : OutBuf) (k : Nat) (x : F32), outRead id (outWrite b k x) k = x) ∧
  (∀ (b : OutBuf) (k j : Nat) (x : F32), k ≠ j → outWord? (outWrite b k x) j = outWord? b j) ∧
  (∀ (b : OutBuf) (k : Nat) (x : F32), Memory.wf b → k < 8388607 → Memory.wf (outWrite b k x)) ∧
  (∀ (c : Config) (b : OutBuf) (k : Nat) (x : F32), Memory.wfIn c b →
    (Memory.wfIn c (outWrite b k x) ↔ k < c.outCapacity)) ∧
  (∀ b b' : OutBuf, Memory.wf b → Memory.wf b' → (∀ k, outWord? b k = outWord? b' k) → b = b') ∧
  (∀ (s : State) (v w : VoiceIx) (x : Voice),
      (s.setVoice v x).voice w = (if v = w then x else s.voice w) ∧
      { s.setVoice v x with voices := s.voices } = s ∧
      (s.setVoice v x).setVoice v (s.voice v) = s)

/-! ## Host commands -/

/-- R87, R246, R254, R300: the instructions with no effect; and reserved opcodes, PSET with an index of 27 or more, the
ignored status nibbles and the unlisted controllers change no state at all, whatever their other bits. -/
def Obligations.NoEffectEncodings : Prop :=
  (∀ s : State,
      exec .nop s = .next s ∧ exec .reserved07 s = .next s ∧ (∀ l, exec (.reserved08 l) s = .next s) ∧
      (∀ l, exec (.reserved10 l) s = .next s) ∧ (∀ l, exec (.reserved20 l) s = .next s) ∧
      (∀ l, exec (.reserved40 l) s = .next s) ∧ (∀ l, exec (.reserved80 l) s = .next s) ∧
      (∀ st, exec (.midiIgnored07 st) s = .next s) ∧ exec .midiIgnoredA s = .next s ∧
      exec .midiIgnoredC s = .next s ∧ exec .midiIgnoredF s = .next s ∧
      (∀ ctl val, exec (.ccOther ctl val) s = .next s) ∧
      (∀ idx wdata, 27 ≤ idx.toNat → exec (.pset idx wdata) s = .next s)) ∧
  ∀ (cmd wdata : Word) (s : State),
    ((cmd.extractLsb' 24 8).toNat = 0 ∨ 7 ≤ (cmd.extractLsb' 24 8).toNat →
      exec (decodeCommand cmd wdata) s = .next s) ∧
    (cmd.extractLsb' 24 8 = 4 → 27 ≤ (cmd.extractLsb' 0 8).toNat → exec (decodeCommand cmd wdata) s = .next s) ∧
    (cmd.extractLsb' 24 8 = 5 →
      (cmd.extractLsb' 20 4).toNat < 8 ∨ cmd.extractLsb' 20 4 = 0xA ∨ cmd.extractLsb' 20 4 = 0xC ∨
        cmd.extractLsb' 20 4 = 0xF →
      exec (decodeCommand cmd wdata) s = .next s) ∧
    (cmd.extractLsb' 24 8 = 5 → cmd.extractLsb' 20 4 = 0xB → isOtherController (cmd.extractLsb' 8 7) = true →
      exec (decodeCommand cmd wdata) s = .next s)

/-- R301: RESET, for a legal sample rate (R326 (c)); the state after it, register by register, with R194 for the voices
and R110 for the seed. RESET is idempotent. -/
def Obligations.ResetCommand : Prop :=
  ∀ s : State, sampleRateInRange cfg s.sampleRate = true →
    ∃ t, exec .reset s = .next t ∧ exec .reset t = .next t ∧
      (∀ v, exec (.voiceReset v) s = .next (s.setVoice v (t.voice v))) ∧
      t = { s with
        voices := t.voices
        ng := 0x000056CE
        pitchBend := ⟨0x3F800000⟩
        sustainPedal := false
        sm := { s.sm with
          len := ((F32.mk 0x3D4CCCCD).mul s.sampleRate).floor.toNat
          cur := s.sm.tgt
          count := 0 }
        lfo := ⟨0⟩
        lfoStep := 0
        modWheel := ⟨0⟩
        lastNote := 0
        pressure := ⟨0⟩
        filterCtl := ⟨0⟩
        filterZip := ⟨0⟩ }

/-- R302, R303: ALLOC of a legal sample rate stores it and sets the flag, whatever the block size. DEALLOC clears the flag
and keeps all other state. An illegal rate is refused (R326 (c); the bound of 2^31 is R16 (e); log 7). -/
def Obligations.AllocAndDealloc : Prop :=
  (∀ s : State, exec .dealloc s = .next { s with allocated := false }) ∧
  ∀ (blockSize : BitVec 24) (rate : F32) (s : State),
    (rate.isFinite = true ∧ rate.gt ⟨0⟩ = true ∧ ((F32.mk 0x3D4CCCCD).mul rate).lt ⟨0x4F000000⟩ = true →
      exec (.alloc blockSize rate) s = .next { s with sampleRate := rate, allocated := true }) ∧
    (¬(rate.isFinite = true ∧ rate.gt ⟨0⟩ = true ∧ ((F32.mk 0x3D4CCCCD).mul rate).lt ⟨0x4F000000⟩ = true) →
      exec (.alloc blockSize rate) s = .refused (.paramOutOfRange .sampleRate))

/-- R304, R40: each PSET row writes its register, marks it written, and changes nothing else. -/
def Obligations.PsetRegisters : Prop :=
  ∀ s : State,
    (∀ x : F32,
      exec (.psetNoiseMix x) s = .next { s with p := { s.p with noiseMix := ⟨x, true⟩ } } ∧
      exec (.psetEnvAttack x) s = .next { s with p := { s.p with envAttack := ⟨x, true⟩ } } ∧
      exec (.psetEnvDecay x) s = .next { s with p := { s.p with envDecay := ⟨x, true⟩ } } ∧
      exec (.psetEnvSustain x) s = .next { s with p := { s.p with envSustain := ⟨x, true⟩ } } ∧
      exec (.psetEnvRelease x) s = .next { s with p := { s.p with envRelease := ⟨x, true⟩ } } ∧
      exec (.psetOscMix x) s = .next { s with p := { s.p with oscMix := ⟨x, true⟩ } } ∧
      exec (.psetDetune x) s = .next { s with p := { s.p with detune := ⟨x, true⟩ } } ∧
      exec (.psetTune x) s = .next { s with p := { s.p with tune := ⟨x, true⟩ } } ∧
      exec (.psetVolumeTrim x) s = .next { s with p := { s.p with volumeTrim := ⟨x, true⟩ } } ∧
      exec (.psetOutputLevel x) s = .next { s with p := { s.p with outputLevel := ⟨x, true⟩ } } ∧
      exec (.psetVelocitySensitivity x) s = .next { s with p := { s.p with velocitySensitivity := ⟨x, true⟩ } } ∧
      exec (.psetLfoInc x) s = .next { s with p := { s.p with lfoInc := ⟨x, true⟩ } } ∧
      exec (.psetVibrato x) s = .next { s with p := { s.p with vibrato := ⟨x, true⟩ } } ∧
      exec (.psetPwmDepth x) s = .next { s with p := { s.p with pwmDepth := ⟨x, true⟩ } } ∧
      exec (.psetGlideRate x) s = .next { s with p := { s.p with glideRate := ⟨x, true⟩ } } ∧
      exec (.psetGlideBend x) s = .next { s with p := { s.p with glideBend := ⟨x, true⟩ } } ∧
      exec (.psetFilterKeyTracking x) s = .next { s with p := { s.p with filterKeyTracking := ⟨x, true⟩ } } ∧
      exec (.psetFilterQ x) s = .next { s with p := { s.p with filterQ := ⟨x, true⟩ } } ∧
      exec (.psetFilterLFODepth x) s = .next { s with p := { s.p with filterLFODepth := ⟨x, true⟩ } } ∧
      exec (.psetFilterAttack x) s = .next { s with p := { s.p with filterAttack := ⟨x, true⟩ } } ∧
      exec (.psetFilterDecay x) s = .next { s with p := { s.p with filterDecay := ⟨x, true⟩ } } ∧
      exec (.psetFilterSustain x) s = .next { s with p := { s.p with filterSustain := ⟨x, true⟩ } } ∧
      exec (.psetFilterRelease x) s = .next { s with p := { s.p with filterRelease := ⟨x, true⟩ } } ∧
      exec (.psetFilterEnvDepth x) s = .next { s with p := { s.p with filterEnvDepth := ⟨x, true⟩ } }) ∧
    (∀ x : BitVec 8,
      exec (.psetNumVoices x) s = .next { s with p := { s.p with numVoices := ⟨x, true⟩ } } ∧
      exec (.psetGlideMode x) s = .next { s with p := { s.p with glideMode := ⟨x, true⟩ } }) ∧
    (∀ x : Bool, exec (.psetIgnoreVelocity x) s = .next { s with p := { s.p with ignoreVelocity := ⟨x, true⟩ } })

/-- R304, R86: the umbrella row PSET at every index does what the register's own row does with the data word, its low
byte or its low bit, completes, writes at most the one register, and marks it written. -/
def Obligations.PsetByIndex : Prop :=
  ∀ (idx : BitVec 8) (wdata : Word) (s : State),
    exec (.pset idx wdata) s = exec (decodePset idx wdata) s ∧
    ∃ t, exec (.pset idx wdata) s = .next t ∧ t = { s with p := t.p } ∧
      ∀ id, t.p.written id = (s.p.written id || decide (ParamId.all[idx.toNat]? = some id))

/-! ## MIDI -/

/-- R240 to R242, R246: the message by its status nibble, for every three bytes; the note messages are SYN.NOTEOFF and
SYN.NOTEON, and a note on with velocity 0 is a note off; the channel nibble and the top bits of the data bytes do not
matter. -/
def Obligations.MidiDispatch : Prop :=
  ∀ (b0 b1 b2 : BitVec 8) (s : State),
    let st := (b0.extractLsb' 4 4).toNat
    let d1 : BitVec 7 := b1.extractLsb' 0 7
    let d2 : BitVec 7 := b2.extractLsb' 0 7
    exec (.midiNoteOff d1) s = exec (.synNoteOff d1) s ∧
    (d2 ≠ 0 → exec (.midiNoteOn d1 d2) s = exec (.synNoteOn d1 d2) s) ∧
    exec (.midiNoteOn d1 0) s = exec (.synNoteOff d1) s ∧
    (st = 0x8 → exec (.midi b0 b1 b2) s = exec (.midiNoteOff d1) s) ∧
    (st = 0x9 → exec (.midi b0 b1 b2) s = exec (.midiNoteOn d1 d2) s) ∧
    (st = 0xB → exec (.midi b0 b1 b2) s = exec (.midiCc d1 d2) s) ∧
    (st = 0xD → exec (.midi b0 b1 b2) s = exec (.midiPressure d1) s) ∧
    (st = 0xE → exec (.midi b0 b1 b2) s = exec (.midiBend d1 d2) s) ∧
    (st < 0x8 ∨ st = 0xA ∨ st = 0xC ∨ st = 0xF → exec (.midi b0 b1 b2) s = .next s) ∧
    (st ≠ 0x8 → st ≠ 0x9 → ∃ t, exec (.midi b0 b1 b2) s = .next t) ∧
    exec (.midi b0 b1 b2) s = exec (decodeMidi b0 b1 b2) s

/-- R244: control change by controller number; it always completes. Under every configuration it does what the
controller row its numbers decode to does, and nothing at an unlisted number (R8, R85, R254). -/
def Obligations.ControlChangeDispatch : Prop :=
  ∀ (ctl val : BitVec 7) (s : State),
    (ctl = 1 → exec (.midiCc ctl val) s = exec (.ccModWheel val) s) ∧
    (ctl = 64 → exec (.midiCc ctl val) s = exec (.ccSustain val) s) ∧
    (ctl = 74 → exec (.midiCc ctl val) s = exec (.ccFilterPos val) s) ∧
    (ctl = 75 → exec (.midiCc ctl val) s = exec (.ccFilterNeg val) s) ∧
    (120 ≤ ctl.toNat → ∀ low, exec (.midiCc ctl val) s = exec (.ccChannelMode low) s) ∧
    (isOtherController ctl = true → exec (.midiCc ctl val) s = .next s) ∧
    (∃ t, exec (.midiCc ctl val) s = .next t) ∧
    ∀ c : Config,
      execIn c (.midiCc ctl val) s = execIn c (decodeCcIn c ctl val) s ∧
      (ctl.toNat = c.ccModwheel → execIn c (.midiCc ctl val) s = execIn c (.ccModWheel val) s) ∧
      (isOtherControllerIn c ctl = true → execIn c (.midiCc ctl val) s = .next s)

/-- R243, R245, R247, R251, R252: the messages that write one scalar, and write nothing else; under every configuration by
its coefficients (R8). -/
def Obligations.ScalarMessages : Prop :=
  ∀ s : State,
    (∀ d1 d2 : BitVec 7, exec (.midiBend d1 d2) s =
      .next { s with
        pitchBend := cfg.exp ((F32.mk 0xB76C97A1).mul (F32.ofInt ((d1.toNat + 128 * d2.toNat : Int) - 8192))) }) ∧
    (∀ val : BitVec 7, exec (.midiPressure val) s =
      .next { s with pressure := (F32.mk 0x38D1B717).mul (F32.ofInt (val.toNat * val.toNat)) }) ∧
    (∀ val : BitVec 7, exec (.ccModWheel val) s =
      .next { s with modWheel := (F32.mk 0x36A7C5AC).mul (F32.ofInt (val.toNat * val.toNat)) }) ∧
    (∀ val : BitVec 7, exec (.ccFilterPos val) s =
      .next { s with filterCtl := (F32.mk 0x3CA3D70A).mul (F32.ofInt val.toNat) }) ∧
    (∀ val : BitVec 7, exec (.ccFilterNeg val) s =
      .next { s with filterCtl := (F32.mk 0xBCF5C28F).mul (F32.ofInt val.toNat) }) ∧
    ∀ (c : Config) (val d1 d2 : BitVec 7),
      execIn c (.midiBend d1 d2) s =
        .next { s with
          pitchBend := c.exp (c.pbCoeff.neg.mul (F32.ofInt ((d1.toNat + 128 * d2.toNat : Int) - 8192))) } ∧
      execIn c (.midiPressure val) s =
        .next { s with pressure := c.pressureCoeff.mul (F32.ofInt (val.toNat * val.toNat)) } ∧
      execIn c (.ccModWheel val) s =
        .next { s with modWheel := c.modwheelCoeff.mul (F32.ofInt (val.toNat * val.toNat)) } ∧
      execIn c (.ccFilterPos val) s = .next { s with filterCtl := c.filterCcPos.mul (F32.ofInt val.toNat) } ∧
      execIn c (.ccFilterNeg val) s = .next { s with filterCtl := c.filterCcNeg.mul (F32.ofInt val.toNat) }

/-- R250: the sustain pedal. Down sets the flag and changes no voice; up clears it, and releases and frees every voice
the pedal holds. -/
def Obligations.SustainPedal : Prop :=
  ∀ (val : BitVec 7) (s : State),
    (64 ≤ val.toNat → exec (.ccSustain val) s = .next { s with sustainPedal := true }) ∧
    (val.toNat < 64 → ∃ t, exec (.ccSustain val) s = .next t ∧
      t = { s with sustainPedal := false, voices := t.voices } ∧
      ∀ v, t.voice v =
        if (s.voice v).note.toInt = -1 then
          { s.voice v with
            env := { (s.voice v).env with target := ⟨0⟩, multiplier := (s.voice v).env.releaseMul }
            fenv := { (s.voice v).fenv with target := ⟨0⟩, multiplier := (s.voice v).fenv.releaseMul }
            note := 0 }
        else s.voice v)

/-- R253: the channel mode messages reset every voice and clear the sustain flag, and write nothing else. -/
def Obligations.ChannelMode : Prop :=
  ∀ (low : BitVec 3) (s : State), ∃ t, exec (.ccChannelMode low) s = .next t ∧
    t = { s with sustainPedal := false, voices := t.voices } ∧
    ∀ v, exec (.voiceReset v) s = .next (s.setVoice v (t.voice v))

/-! ## Noise, envelope, oscillator, filter -/

/-- R110, R111: NG.RESET and NG.NEXT, with the value of the sample: the low 23 bits of the new seed, times 2^-22, minus
one, exactly. Under every configuration by its constants (R8); that the bias is added, and not combined by OR as R16 (b)
says, is log 22, and makes no difference for a bias that shares no bit with the mask. -/
def Obligations.NoiseGenerator : Prop :=
  ∀ s : State,
    exec .ngReset s = .next { s with ng := 0x000056CE } ∧
    ∃ x : F32,
      exec .ngNext s = .next { s with ng := s.ng * 196314165 + 907633515, result := .f32 x } ∧
      x = (F32.mk (((s.ng * 196314165 + 907633515) &&& 0x007FFFFF) + 0x40000000)).sub ⟨0x40400000⟩ ∧
      x.isFinite = true ∧
      x.units = ((s.ng * 196314165 + 907633515).toNat % 2 ^ 23 : Int) * 2 ^ 127 - 2 ^ 149 ∧
      ∀ c : Config,
        let seed := s.ng * c.noiseMul + c.noiseInc
        execIn c .ngReset s = .next { s with ng := c.noiseSeed } ∧
        execIn c .ngNext s =
          .next { s with ng := seed, result := .f32 ((F32.mk ((seed &&& c.noiseMask) + c.noiseBias)).sub c.noiseOffset) } ∧
        (c.noiseMask &&& c.noiseBias = 0 →
          (seed &&& c.noiseMask) + c.noiseBias = (seed &&& c.noiseMask) ||| c.noiseBias)

/-- R120 to R125: the envelope operations and predicates, on either envelope of any voice. -/
def Obligations.EnvelopeOperations : Prop :=
  ∀ (v : VoiceIx) (e : EnvSel) (s : State),
    let E := (s.voice v).envOf e
    let put := fun E' => s.setVoice v ((s.voice v).setEnv e E')
    let level := (E.multiplier.mul (E.level.sub E.target)).add E.target
    exec (.envReset v e) s = .next (put { E with level := ⟨0⟩, target := ⟨0⟩, multiplier := ⟨0⟩ }) ∧
    exec (.envAttack v e) s =
      .next (put { E with level := E.level.add ⟨0x3951B717⟩, target := ⟨0x40000000⟩, multiplier := E.attackMul }) ∧
    ((level.add E.target).gt ⟨0x40400000⟩ = true →
      exec (.envNext v e) s =
        .next { put { E with level := level, multiplier := E.decayMul, target := E.sustainLevel } with
          result := .f32 level }) ∧
    ((level.add E.target).gt ⟨0x40400000⟩ = false →
      exec (.envNext v e) s = .next { put { E with level := level } with result := .f32 level }) ∧
    exec (.envRelease v e) s = .next (put { E with target := ⟨0⟩, multiplier := E.releaseMul }) ∧
    exec (.envIsActive v e) s = .next { s with result := .bool (E.level.gt ⟨0x38D1B717⟩) } ∧
    exec (.envIsInAttack v e) s = .next { s with result := .bool (E.target.ge ⟨0x40000000⟩) }

/-- R127, second half, and R122 (a), (b): with legal registers ENV.NEXT never makes the level negative nor puts it above
2.0; and with legal coefficients it leaves every register of the envelope legal again, as ENV.RELEASE and ENV.RESET do,
and ENV.ATTACK from a level whose jump stays at or below 2.0. -/
def Obligations.EnvelopeLevelNeverNegative : Prop :=
  ∀ (v : VoiceIx) (e : EnvSel) (s : State),
    let E := (s.voice v).envOf e
    (E.level.ge ⟨0⟩ = true → E.level.le ⟨0x40000000⟩ = true → E.target.ge ⟨0⟩ = true →
      E.target.le ⟨0x40000000⟩ = true → E.multiplier.ge ⟨0⟩ = true → E.multiplier.lt ⟨0x3F800000⟩ = true →
      ∃ t, exec (.envNext v e) s = .next t ∧ ((t.voice v).envOf e).level.ge ⟨0⟩ = true ∧
        ((t.voice v).envOf e).level.le ⟨0x40000000⟩ = true ∧ ((t.voice v).envOf e).level.isFinite = true) ∧
    (E.inRange = true →
      (∃ t, exec (.envNext v e) s = .next t ∧ ((t.voice v).envOf e).inRange = true) ∧
      (∃ t, exec (.envRelease v e) s = .next t ∧ ((t.voice v).envOf e).inRange = true) ∧
      (∃ t, exec (.envReset v e) s = .next t ∧ ((t.voice v).envOf e).inRange = true) ∧
      ((E.level.add ⟨0x3951B717⟩).le ⟨0x40000000⟩ = true →
        ∃ t, exec (.envAttack v e) s = .next t ∧ ((t.voice v).envOf e).inRange = true))

/-- R140, R144: OSC.RESET and OSC.SQUARE, on any oscillator; the other oscillator is read after the reset, as written. -/
def Obligations.OscillatorResetAndSquare : Prop :=
  ∀ (v : VoiceIx) (o : OscSel) (s : State),
    let O := (s.voice v).oscOf o
    let cleared := { O with
      phase := ⟨0⟩, phaseMax := ⟨0⟩, inc := ⟨0⟩, sin0 := ⟨0⟩, sin1 := ⟨0⟩, dsin := ⟨0⟩, dc := ⟨0⟩ }
    let put := fun O' => s.setVoice v ((s.voice v).setOsc o O')
    exec (.oscReset v o) s = .next (put cleared) ∧
    ∀ (w : VoiceIx) (q : OscSel) (newPeriod : F32),
      let other := ((put cleared).voice w).oscOf q
      let start : F32 × F32 :=
        if other.inc.gt ⟨0⟩ = true then ((other.phaseMax.add other.phaseMax).sub other.phase, other.inc.neg)
        else if other.inc.lt ⟨0⟩ = true then (other.phase, other.inc)
        else (⟨0xC0490FDB⟩, ⟨0x40490FDB⟩)
      let phase := start.1.add (((F32.mk 0x40490FDB).mul newPeriod).div ⟨0x40000000⟩)
      exec (.oscSquare v o w q newPeriod) s =
        .next (put { cleared with phase := phase, phaseMax := phase, inc := start.2 })

/-- R141 to R143: OSC.NEXT, the phase advance, the branch, and every register of both branches. -/
def Obligations.OscillatorNext : Prop :=
  ∀ (v : VoiceIx) (o : OscSel) (s : State),
    let O := (s.voice v).oscOf o
    let put := fun (O' : Oscillator) (x : F32) => { s.setVoice v ((s.voice v).setOsc o O') with result := .f32 x }
    let phase := O.phase.add O.inc
    (phase.le ⟨0x3F490FDB⟩ = true →
      let halfPeriod := (O.period.div ⟨0x40000000⟩).mul O.modulation
      let m := (((F32.mk 0x3F000000).add halfPeriod).floor).sub ⟨0x3F000000⟩
      let dc := ((F32.mk 0x3F000000).mul O.amplitude).div m
      let phaseMax := m.mul ⟨0x40490FDB⟩
      let inc := phaseMax.div halfPeriod
      let ph := phase.neg
      let sin0 := O.amplitude.mul (cfg.sin ph)
      let sin1 := O.amplitude.mul (cfg.sin (ph.sub inc))
      let dsin := (F32.mk 0x40000000).mul (cfg.cos inc)
      let out := if (ph.mul ph).gt ⟨0x3089705F⟩ = true then sin0.div ph else O.amplitude
      exec (.oscNext v o) s =
        .next (put { O with dc := dc, phaseMax := phaseMax, inc := inc, phase := ph, sin0 := sin0, sin1 := sin1,
                            dsin := dsin } (out.sub dc))) ∧
    (phase.le ⟨0x3F490FDB⟩ = false →
      let beyond := phase.gt O.phaseMax
      let ph := if beyond = true then (O.phaseMax.add O.phaseMax).sub phase else phase
      let inc := if beyond = true then O.inc.neg else O.inc
      let sinp := (O.dsin.mul O.sin0).sub O.sin1
      exec (.oscNext v o) s =
        .next (put { O with phase := ph, inc := inc, sin1 := O.sin0, sin0 := sinp } ((sinp.div ph).sub O.dc)))

/-- R160, R162, R166: FLT.UPDATE with the coefficients of the ladder, the realisation in force (R8's default; log 3), and
FLT.RESET. -/
def Obligations.FilterUpdateAndReset : Prop :=
  ∀ (v : VoiceIx) (s : State),
    let F := (s.voice v).filter
    let put := fun F' => s.setVoice v { s.voice v with filter := F' }
    exec (.fltReset v) s = .next (put { F with poles := ⟨⟨0⟩, ⟨0⟩, ⟨0⟩, ⟨0⟩⟩ }) ∧
    ∀ cutoffHz q : F32,
      let ratio := q.div ⟨0x41F00000⟩
      let res := if ratio.lt ⟨0⟩ = true then ⟨0⟩ else if ratio.gt ⟨0x3F800000⟩ = true then ⟨0x3F800000⟩ else ratio
      let w := ((F32.mk 0x40C90FDB).mul cutoffHz).div s.sampleRate
      exec (.fltUpdate v cutoffHz q) s =
        .next (put { F with
          cutoff := cutoffHz
          res := res
          coef := .ladder ((F32.mk 0x3F800000).sub (cfg.exp w.neg)) ((F32.mk 0x40800000).mul res) })

/-- R161, R167, R172, R176: FLT.RENDER writes the poles and nothing else: one step of the ladder, of the two biquad
sections, or of a user structure, by the coefficient registers the filter holds (log 3). A user structure steps by the
configuration's function, and from cleared poles on a zero as `LPF4_silent` says (R163). -/
def Obligations.FilterRender : Prop :=
  ∀ (v : VoiceIx) (x : F32) (s : State),
    let F := (s.voice v).filter
    let y := F.poles
    let put := fun (p : Poles) (r : F32) =>
      { s.setVoice v { s.voice v with filter := { F with poles := p } } with result := .f32 r }
    (∀ g k, F.coef = .ladder g k →
      let u := x.sub (k.mul y.p3)
      let y0 := y.p0.add (g.mul (u.sub y.p0))
      let y1 := y.p1.add (g.mul (y0.sub y.p1))
      let y2 := y.p2.add (g.mul (y1.sub y.p2))
      let y3 := y.p3.add (g.mul (y2.sub y.p3))
      exec (.fltRender v x) s = .next (put ⟨y0, y1, y2, y3⟩ y3)) ∧
    (∀ b0 b1 b2 a1 a2, F.coef = .biquad b0 b1 b2 a1 a2 →
      let y1 := (b0.mul x).add y.p0
      let y2 := (b0.mul y1).add y.p2
      exec (.fltRender v x) s =
        .next (put ⟨((b1.mul x).sub (a1.mul y1)).add y.p1, (b2.mul x).sub (a2.mul y1),
                    ((b1.mul y1).sub (a1.mul y2)).add y.p3, (b2.mul y1).sub (a2.mul y2)⟩ y2)) ∧
    (∀ regs, F.coef = .user regs →
      (¬(y = ⟨⟨0⟩, ⟨0⟩, ⟨0⟩, ⟨0⟩⟩ ∧ x.isZero = true) →
        exec (.fltRender v x) s = .next (put (cfg.userStep regs y x).1 (cfg.userStep regs y x).2)) ∧
      (y = ⟨⟨0⟩, ⟨0⟩, ⟨0⟩, ⟨0⟩⟩ → x.isZero = true →
        ∃ r : F32, r.isZero = true ∧ exec (.fltRender v x) s = .next (put y r)))

/-- R163, `LPF4_silent`, as far as each realisation has it (log 3), under every configuration. A user structure: from
cleared poles a zero input leaves the poles cleared and gives a zero, for all coefficient registers, whatever function
the configuration names (R176). The ladder: the same with an output of exactly `+0.0`, for finite coefficients. The biquad
cascade, for finite coefficients: the output is a zero and the section registers hold zeros, of either sign. -/
def Obligations.FilterSilent : Prop :=
  ∀ (c : Config) (x : F32), x.isZero = true →
    let cleared : Poles := ⟨⟨0⟩, ⟨0⟩, ⟨0⟩, ⟨0⟩⟩
    (∀ regs : List F32,
      (lpf4Step c (.user regs) cleared x).1 = cleared ∧ (lpf4Step c (.user regs) cleared x).2.isZero = true) ∧
    (∀ g k : F32, g.isFinite = true → k.isFinite = true →
      (lpf4Step c (.ladder g k) cleared x).1 = cleared ∧ (lpf4Step c (.ladder g k) cleared x).2 = ⟨0⟩) ∧
    (∀ b0 b1 b2 a1 a2 : F32, b0.isFinite = true → b1.isFinite = true → b2.isFinite = true → a1.isFinite = true →
      a2.isFinite = true →
      let r := lpf4Step c (.biquad b0 b1 b2 a1 a2) cleared x
      r.1.p0.isZero = true ∧ r.1.p1.isZero = true ∧ r.1.p2.isZero = true ∧ r.1.p3.isZero = true ∧ r.2.isZero = true)

/-! ## Voice -/

/-- R192 to R194: VOICE.RELEASE, VOICE.RESET and VOICE.UPDATEPAN, register by register. -/
def Obligations.VoiceReleaseResetPan : Prop :=
  (∀ (v : VoiceIx) (s : State),
      let V := s.voice v
      let clearOsc := fun (O : Oscillator) => { O with
        phase := ⟨0⟩, phaseMax := ⟨0⟩, inc := ⟨0⟩, sin0 := ⟨0⟩, sin1 := ⟨0⟩, dsin := ⟨0⟩, dc := ⟨0⟩ }
      exec (.voiceRelease v) s =
        .next (s.setVoice v { V with
          env := { V.env with target := ⟨0⟩, multiplier := V.env.releaseMul }
          fenv := { V.fenv with target := ⟨0⟩, multiplier := V.fenv.releaseMul } }) ∧
      exec (.voiceReset v) s =
        .next (s.setVoice v { V with
          note := 0
          saw := ⟨0⟩
          osc1 := clearOsc V.osc1
          osc2 := clearOsc V.osc2
          env := { V.env with level := ⟨0⟩, target := ⟨0⟩, multiplier := ⟨0⟩ }
          fenv := { V.fenv with level := ⟨0⟩, target := ⟨0⟩, multiplier := ⟨0⟩ }
          filter := { V.filter with poles := ⟨⟨0⟩, ⟨0⟩, ⟨0⟩, ⟨0⟩⟩ }
          panLeft := ⟨0x3F34FDF4⟩
          panRight := ⟨0x3F34FDF4⟩ })) ∧
  (∀ (v : VoiceIx) (s : State),
      let q := ((F32.ofInt (s.voice v).note.toInt).sub ⟨0x42700000⟩).div ⟨0x41C00000⟩
      let p := if q.lt ⟨0xBF800000⟩ = true then ⟨0xBF800000⟩ else if q.gt ⟨0x3F800000⟩ = true then ⟨0x3F800000⟩ else q
      exec (.voiceUpdatePan v) s =
        .next (s.setVoice v { s.voice v with
          panLeft := cfg.sin ((F32.mk 0x3F490FDB).mul ((F32.mk 0x3F800000).sub p))
          panRight := cfg.sin ((F32.mk 0x3F490FDB).mul ((F32.mk 0x3F800000).add p)) }))

/-- R190: VOICE.RENDER is the calls of its rule, in its order, each on the state the one before left. That it completes
in every state is the model's choice: an oscillator below the minimum period is evaluated as written (R325; log 8), and an
inactive voice may be selected (log 20). -/
def Obligations.VoiceRenderComposition : Prop :=
  ∀ (v : VoiceIx) (input : F32) (s : State),
    ∃ (a b c d : State) (s1 s2 y e : F32),
      exec (.oscNext v .one) s = .next a ∧ a.result = .f32 s1 ∧
      exec (.oscNext v .two) a = .next b ∧ b.result = .f32 s2 ∧
      let saw := (((s.voice v).saw.mul ⟨0x3F7F3B64⟩).add s1).sub s2
      exec (.fltRender v (saw.add input)) (b.setVoice v { b.voice v with saw := saw }) = .next c ∧
        c.result = .f32 y ∧
        exec (.envNext v .amp) c = .next d ∧ d.result = .f32 e ∧
        exec (.voiceRender v input) s = .next { d with result := .f32 (y.mul e) }

/-- R191: VOICE.UPDATELFO is the glide step, ENV.NEXT of the filter envelope, the clamped cutoff, and FLT.UPDATE: with the
defaults in force (FENV_COMBINE is sum, log 4), and under every configuration, either way of combining (R8, D20). -/
def Obligations.VoiceUpdateLfoComposition : Prop :=
  (∀ (v : VoiceIx) (s : State),
    let V := s.voice v
    let glided := V.period.add (V.glideRate.mul (V.target.sub V.period))
    ∃ (a b : State) (fe : F32),
      exec (.envNext v .filt) (s.setVoice v { V with period := glided }) = .next a ∧ a.result = .f32 fe ∧
      let mc := (V.cutoff.mul (cfg.exp ((V.filterMod.add V.filterEnvDepth).add fe))).div V.pitchBend
      let cutoffHz := if mc.lt ⟨0x41F00000⟩ = true then ⟨0x41F00000⟩
        else if mc.gt ⟨0x469C4000⟩ = true then ⟨0x469C4000⟩ else mc
      exec (.fltUpdate v cutoffHz V.filterQ) a = .next b ∧
        exec (.voiceUpdateLfo v) s = .next { b with result := s.result }) ∧
  (∀ (c : Config) (v : VoiceIx) (s : State),
    let V := s.voice v
    let glided := V.period.add (V.glideRate.mul (V.target.sub V.period))
    ∃ (a b : State) (fe : F32),
      execIn c (.envNext v .filt) (s.setVoice v { V with period := glided }) = .next a ∧ a.result = .f32 fe ∧
      let arg := match c.fenvCombine with
        | .sum => (V.filterMod.add V.filterEnvDepth).add fe
        | .product => V.filterMod.add (V.filterEnvDepth.mul fe)
      let mc := (V.cutoff.mul (c.exp arg)).div V.pitchBend
      let cutoffHz := if mc.lt c.cutoffMin = true then c.cutoffMin
        else if mc.gt c.cutoffMax = true then c.cutoffMax else mc
      execIn c (.fltUpdate v cutoffHz V.filterQ) a = .next b ∧
        execIn c (.voiceUpdateLfo v) s = .next { b with result := s.result })

/-! ## Allocation and glide -/

/-- R273: SYN.FINDFREE returns the quietest voice that is not in attack, the lowest index among equals, and voice 0 when
there is none below the bound; it writes no register. -/
def Obligations.FindFree : Prop :=
  ∀ s : State, ∃ v : VoiceIx, exec .synFindFree s = .next { s with result := .voice v } ∧
    let eligible := fun (i : VoiceIx) =>
      (s.voice i).env.level.lt ⟨0x42C80000⟩ = true ∧ (s.voice i).env.target.ge ⟨0x40000000⟩ = false
    ((∃ i, eligible i) → eligible v ∧
      (∀ i, eligible i → (s.voice i).env.level.lt (s.voice v).env.level = false) ∧
      (∀ i, eligible i → i < v → (s.voice v).env.level.lt (s.voice i).env.level = true)) ∧
    ((∀ i, ¬eligible i) → v = 0)

/-- R274, R305: when the first line gives a positive period and `tune` and `detune` are written and legal, the doubling
loop of SYN.CALCPERIOD ends: the result is a doubling of the first line, and it and its detuned companion are at least
6.0. -/
def Obligations.CalcPeriodEnds : Prop :=
  ∀ (v : VoiceIx) (note : BitVec 7) (s : State),
    let first := s.p.tune.value.mul
      (cfg.exp ((F32.mk 0xBD6C9820).mul ((F32.ofInt note.toNat).add ((F32.mk 0x3B03126F).mul (F32.ofInt v.val)))))
    s.p.tune.written = true → s.p.detune.written = true → tuneInRange s.p.tune.value = true →
    detuneInRange s.p.detune.value = true → first.gt ⟨0⟩ = true →
    ∃ per : F32, exec (.synCalcPeriod v note) s = .next { s with result := .f32 per } ∧
      (∃ k, per = (fun x : F32 => x.add x)^[k] first ∧
        ∀ j < k, ((fun x : F32 => x.add x)^[j] first).lt ⟨0x40C00000⟩ = true ∨
          (((fun x : F32 => x.add x)^[j] first).mul s.p.detune.value).lt ⟨0x40C00000⟩ = true) ∧
      per.ge ⟨0x40C00000⟩ = true ∧ (per.mul s.p.detune.value).ge ⟨0x40C00000⟩ = true

/-- R275: SYN.LEGATO says whether any voice holds a key; it writes no register. -/
def Obligations.Legato : Prop :=
  ∀ s : State, ∃ held : Bool, exec .synLegato s = .next { s with result := .bool held } ∧
    (held = true ↔ ∃ v, 0 < (s.voice v).note.toInt)

/-- R276: SYN.STARTVOICE is the lines of its rule, in its order, for a boot that wrote every parameter in range (R356)
and a positive first period (R274). -/
def Obligations.StartVoiceComposition : Prop :=
  ∀ (v : VoiceIx) (note vel : BitVec 7) (s : State),
    s.p.ready cfg = true →
    (s.p.tune.value.mul (cfg.exp ((F32.mk 0xBD6C9820).mul
      ((F32.ofInt note.toNat).add ((F32.mk 0x3B03126F).mul (F32.ofInt v.val)))))).gt ⟨0⟩ = true →
    ∃ (per : F32) (held : Bool) (a b c d : State),
      exec (.synCalcPeriod v note) s = .next { s with result := .f32 per } ∧
      exec .synLegato s = .next { s with result := .bool held } ∧
      let distance : Int :=
        if 0 < s.lastNote.toNat ∧ (s.p.glideMode.value = 2 ∨ (s.p.glideMode.value = 1 ∧ held = true)) then
          (note.toNat : Int) - s.lastNote.toNat
        else 0
      let glide := per.mul (cfg.pow ⟨0x3F879C7D⟩ ((F32.ofInt distance).sub s.p.glideBend.value))
      let period := if glide.lt ⟨0x40C00000⟩ = true then ⟨0x40C00000⟩ else glide
      exec (.voiceUpdatePan v)
        { s.setVoice v { s.voice v with target := per, period := period, note := note.setWidth 8 } with
          lastNote := note.setWidth 8 } = .next a ∧
      let vv := ((F32.mk 0x3B83126F).mul (F32.ofInt ((vel.toNat + 64) * (vel.toNat + 64)))).sub ⟨0x41000000⟩
      let amp := s.p.volumeTrim.value.mul vv
      let loud := a.setVoice v { a.voice v with
        osc1 := { (a.voice v).osc1 with amplitude := amp }
        osc2 := { (a.voice v).osc2 with amplitude := amp.mul s.p.oscMix.value } }
      (if s.p.vibrato.value.feq ⟨0⟩ = true ∧ s.p.pwmDepth.value.gt ⟨0⟩ = true then
        exec (.oscSquare v .two v .one period) loud = .next b
       else b = loud) ∧
      let cutoff := (s.sampleRate.div (per.mul ⟨0x40490FDB⟩)).mul
        (cfg.exp (s.p.velocitySensitivity.value.mul (F32.ofInt ((vel.toNat : Int) - 64))))
      exec (.envAttack v .amp) (b.setVoice v { b.voice v with
        cutoff := cutoff
        env := { (b.voice v).env with
          attackMul := s.p.envAttack.value
          decayMul := s.p.envDecay.value
          sustainLevel := s.p.envSustain.value
          releaseMul := s.p.envRelease.value } }) = .next c ∧
      exec (.envAttack v .filt) (c.setVoice v { c.voice v with
        fenv := { (c.voice v).fenv with
          attackMul := s.p.filterAttack.value
          decayMul := s.p.filterDecay.value
          sustainLevel := s.p.filterSustain.value
          releaseMul := s.p.filterRelease.value } }) = .next d ∧
      exec (.synStartVoice v note vel) s = .next d

/-- R45: after SYN.STARTVOICE the target period is at least 6.0 and the current one is not below it. -/
def Obligations.StartedPeriodsNotShort : Prop :=
  ∀ (v : VoiceIx) (note vel : BitVec 7) (s t : State), exec (.synStartVoice v note vel) s = .next t →
    (t.voice v).target.lt ⟨0x40C00000⟩ = false ∧ (t.voice v).period.lt ⟨0x40C00000⟩ = false ∧
    ((t.voice v).target.mul s.p.detune.value).lt ⟨0x40C00000⟩ = false

/-- R277: SYN.RESTARTMONO is the lines of its rule on voice 0, for a boot that wrote every parameter in range and a
positive first period; `vel` at or below 0 means no velocity. -/
def Obligations.RestartMonoComposition : Prop :=
  ∀ (note : BitVec 7) (vel : BitVec 8) (s : State),
    s.p.ready cfg = true →
    (s.p.tune.value.mul (cfg.exp ((F32.mk 0xBD6C9820).mul
      ((F32.ofInt note.toNat).add ((F32.mk 0x3B03126F).mul (F32.ofInt 0)))))).gt ⟨0⟩ = true →
    ∃ (per : F32) (a : State),
      exec (.synCalcPeriod 0 note) s = .next { s with result := .f32 per } ∧
      exec (.voiceUpdatePan 0) (s.setVoice 0 { s.voice 0 with
        target := per
        period := if s.p.glideMode.value = 0 then per else (s.voice 0).period
        env := { (s.voice 0).env with level := (s.voice 0).env.level.add ⟨0x3951B717⟩ }
        note := note.setWidth 8 }) = .next a ∧
      let base := s.sampleRate.div (per.mul ⟨0x40490FDB⟩)
      let cutoff := if 0 < vel.toInt then
          base.mul (cfg.exp (s.p.velocitySensitivity.value.mul (F32.ofInt (vel.toInt - 64))))
        else base
      exec (.synRestartMono note vel) s = .next (a.setVoice 0 { a.voice 0 with cutoff := cutoff })

/-- R280, R282: SYN.SHIFTQ shifts the note fields up by one slot and releases voices 1 to 7, and does not touch voice 0;
SYN.NEXTQ returns the held note of the lowest slot of 1 to 7 that has one and clears that slot alone, or returns 0 and
changes nothing. -/
def Obligations.QueueOperations : Prop :=
  (∀ s : State, ∃ t, exec .synShiftQ s = .next t ∧ t = { s with voices := t.voices } ∧ t.voice 0 = s.voice 0 ∧
      ∀ v w : VoiceIx, v.val = w.val + 1 →
        t.voice v = { s.voice v with
          note := (s.voice w).note
          env := { (s.voice v).env with target := ⟨0⟩, multiplier := (s.voice v).env.releaseMul }
          fenv := { (s.voice v).fenv with target := ⟨0⟩, multiplier := (s.voice v).fenv.releaseMul } }) ∧
  (∀ s : State,
      (∀ v : VoiceIx, 1 ≤ v.val → 0 < (s.voice v).note.toInt →
        (∀ w : VoiceIx, 1 ≤ w.val → w < v → ¬0 < (s.voice w).note.toInt) →
        exec .synNextQ s =
          .next { s.setVoice v { s.voice v with note := 0 } with result := .note (s.voice v).note }) ∧
      ((∀ v : VoiceIx, 1 ≤ v.val → ¬0 < (s.voice v).note.toInt) →
        exec .synNextQ s = .next { s with result := .note 0 }))

/-- R281, R284: the queue is last in, first out: SYN.NEXTQ after SYN.SHIFTQ returns the note that was sounding on voice 0,
and leaves the older entries one slot further up. -/
def Obligations.HeldNotesAreAStack : Prop :=
  ∀ s : State, 0 < (s.voice 0).note.toInt →
    ∃ a b, exec .synShiftQ s = .next a ∧ exec .synNextQ a = .next b ∧ b.result = .note (s.voice 0).note ∧
      (b.voice 0).note = (s.voice 0).note ∧ (b.voice 1).note = 0 ∧
      ∀ v w : VoiceIx, 1 ≤ w.val → v.val = w.val + 1 → (b.voice v).note = (s.voice w).note

/-- R270 to R272: SYN.NOTEON with the fixed velocity when velocities are ignored: in mono mode SYN.SHIFTQ and
SYN.RESTARTMONO when voice 0 holds a key, else SYN.STARTVOICE on voice 0; in poly mode SYN.STARTVOICE on the voice
SYN.FINDFREE returns. -/
def Obligations.NoteOnComposition : Prop :=
  ∀ (note vel : BitVec 7) (s : State),
    s.p.ignoreVelocity.written = true → s.p.numVoices.written = true →
    let vel' : BitVec 7 := if s.p.ignoreVelocity.value = true then 80 else vel
    (s.p.numVoices.value = 1 → 0 < (s.voice 0).note.toInt →
      ∃ a, exec .synShiftQ s = .next a ∧
        exec (.synNoteOn note vel) s = exec (.synRestartMono note (vel'.setWidth 8)) a) ∧
    (s.p.numVoices.value = 1 → ¬0 < (s.voice 0).note.toInt →
      exec (.synNoteOn note vel) s = exec (.synStartVoice 0 note vel') s) ∧
    (s.p.numVoices.value ≠ 1 →
      ∃ v, exec .synFindFree s = .next { s with result := .voice v } ∧
        exec (.synNoteOn note vel) s = exec (.synStartVoice v note vel') s)

/-- R270, R242, R356: a note on completes when every parameter is written and in range and the first line of
SYN.CALCPERIOD is positive for the voice it goes to; the message with a velocity above 0 gives the same state. -/
def Obligations.NoteOnCompletes : Prop :=
  ∀ (note vel : BitVec 7) (s : State),
    s.p.ready cfg = true →
    (let v : VoiceIx := if s.p.numVoices.value = 1 then 0 else findFree cfg s.voices
     (s.p.tune.value.mul (cfg.exp ((F32.mk 0xBD6C9820).mul
       ((F32.ofInt note.toNat).add ((F32.mk 0x3B03126F).mul (F32.ofInt v.val)))))).gt ⟨0⟩ = true) →
    ∃ t, exec (.synNoteOn note vel) s = .next t ∧ (vel ≠ 0 → exec (.midiNoteOn note vel) s = .next t)

/-- R283, R241: SYN.NOTEOFF. When no queued note is restored every voice that holds the note is marked SUSTAIN under the
pedal, else released and freed, and nothing else changes; a mono note-off of the sounding note with a queued one pops the
queue (R282) and retriggers voice 0 with the popped note and no velocity (R277). -/
def Obligations.NoteOff : Prop :=
  (∀ (note : BitVec 7) (s : State), s.p.numVoices.written = true →
      (s.p.numVoices.value ≠ 1 ∨ (s.voice 0).note ≠ note.setWidth 8 ∨
        ∀ v : VoiceIx, 1 ≤ v.val → ¬0 < (s.voice v).note.toInt) →
      ∃ t, exec (.synNoteOff note) s = .next t ∧ exec (.midiNoteOff note) s = .next t ∧
        t = { s with voices := t.voices } ∧
        ∀ v, t.voice v =
          if (s.voice v).note = note.setWidth 8 then
            (if s.sustainPedal = true then { s.voice v with note := 0xFF }
             else
              { s.voice v with
                env := { (s.voice v).env with target := ⟨0⟩, multiplier := (s.voice v).env.releaseMul }
                fenv := { (s.voice v).fenv with target := ⟨0⟩, multiplier := (s.voice v).fenv.releaseMul }
                note := 0 })
          else s.voice v) ∧
  (∀ (note q : BitVec 7) (s a : State), s.p.numVoices.written = true → s.p.numVoices.value = 1 →
      (s.voice 0).note = note.setWidth 8 → exec .synNextQ s = .next a → a.result = .note (q.setWidth 8) → q ≠ 0 →
      exec (.synNoteOff note) s = exec (.synRestartMono q 0xFF) { a with result := s.result })

/-! ## LFO, smoother, safety net -/

/-- R214: SYN.LFOSTEP between two ticks and at a tick: the counter, the phase, the smoothed modulation, and for every
active voice the modulations, VOICE.UPDATELFO and SYN.UPDATEPERIOD; an inactive voice is not touched. -/
def Obligations.LfoStep : Prop :=
  ∀ s : State,
    (1 < s.lfoStep → exec .synLfoStep s = .next { s with lfoStep := s.lfoStep - 1 }) ∧
    (s.lfoStep ≤ 1 → s.p.ready cfg = true →
      let moved := s.lfo.add s.p.lfoInc.value
      let lfo := if moved.gt ⟨0x40490FDB⟩ = true then moved.sub ⟨0x40C90FDB⟩ else moved
      let sine := cfg.sin lfo
      let vibratoMod := (F32.mk 0x3F800000).add (sine.mul (s.modWheel.add s.p.vibrato.value))
      let pwm := (F32.mk 0x3F800000).add (sine.mul (s.modWheel.add s.p.pwmDepth.value))
      let filterMod := (s.p.filterKeyTracking.value.add s.filterCtl).add
        ((s.p.filterLFODepth.value.add s.pressure).mul sine)
      let zip := s.filterZip.add ((F32.mk 0x3BA3D70A).mul (filterMod.sub s.filterZip))
      ∃ t, exec .synLfoStep s = .next t ∧
        t = { s with lfoStep := 32, lfo := lfo, filterZip := zip, voices := t.voices } ∧
        (∀ v, (s.voice v).env.level.gt ⟨0x38D1B717⟩ = false → t.voice v = s.voice v) ∧
        (∀ v, (s.voice v).env.level.gt ⟨0x38D1B717⟩ = true →
          ∃ a b,
            exec (.voiceUpdateLfo v) (s.setVoice v { s.voice v with
              osc1 := { (s.voice v).osc1 with modulation := vibratoMod }
              osc2 := { (s.voice v).osc2 with modulation := pwm }
              filterMod := zip }) = .next a ∧
            exec (.synUpdatePeriod v) a = .next b ∧ t.voice v = b.voice v))

/-- R215: SYN.UPDATEPERIOD, with `detune` written and legal. -/
def Obligations.UpdatePeriod : Prop :=
  ∀ (v : VoiceIx) (s : State), s.p.detune.written = true → detuneInRange s.p.detune.value = true →
    exec (.synUpdatePeriod v) s =
      .next (s.setVoice v { s.voice v with
        osc1 := { (s.voice v).osc1 with period := (s.voice v).period.mul s.pitchBend }
        osc2 := { (s.voice v).osc2 with
          period := ((s.voice v).period.mul s.pitchBend).mul s.p.detune.value } })

/-- R216, R222: SM.SET and SM.NEXT, every branch; and a ramp of `n + 1` samples takes `n + 1` calls of SM.NEXT and lands
exactly on its target, whatever the rounding on the way. -/
def Obligations.Smoother : Prop :=
  (∀ s : State,
      (∀ x : F32, x.feq s.sm.tgt = true → exec (.smSet x) s = .next s) ∧
      (∀ x : F32, x.feq s.sm.tgt = false → s.sm.len = 0 →
        exec (.smSet x) s = .next { s with sm := { s.sm with cur := x, tgt := x, count := 0 } }) ∧
      (∀ x : F32, x.feq s.sm.tgt = false → 0 < s.sm.len →
        exec (.smSet x) s =
          .next { s with sm := { s.sm with
            tgt := x
            count := s.sm.len
            step := (x.sub s.sm.cur).div (F32.ofInt s.sm.len) } }) ∧
      (s.sm.count = 0 → exec .smNext s = .next { s with result := .f32 s.sm.tgt }) ∧
      (1 < s.sm.count →
        exec .smNext s =
          .next { s with
            sm := { s.sm with count := s.sm.count - 1, cur := s.sm.cur.add s.sm.step }
            result := .f32 (s.sm.cur.add s.sm.step) }) ∧
      (s.sm.count = 1 →
        exec .smNext s = .next { s with sm := { s.sm with count := 0, cur := s.sm.tgt }, result := .f32 s.sm.tgt })) ∧
  (∀ (n : Nat) (s : State), s.sm.count = n + 1 →
      ∃ run : Nat → State, run 0 = s ∧ (∀ k ≤ n, exec .smNext (run k) = .next (run (k + 1))) ∧
        (∀ k ≤ n, (run k).sm.count = n + 1 - k) ∧
        (run (n + 1)).sm = { s.sm with count := 0, cur := s.sm.tgt } ∧ (run (n + 1)).result = .f32 s.sm.tgt)

/-- R219: SYN.SAFE, branch by branch, and its postcondition: the result is finite and in `[-1.0, 1.0]`, and a value
already there passes unchanged. -/
def Obligations.SafeSample : Prop :=
  ∀ (x : F32) (s : State), ∃ y : F32, exec (.synSafe x) s = .next { s with result := .f32 y } ∧
    (x.isNaN = true ∨ x.isInf = true → y = ⟨0⟩) ∧
    (x.lt ⟨0xC0000000⟩ = true ∨ x.gt ⟨0x40000000⟩ = true → y = ⟨0⟩) ∧
    (x.ge ⟨0xC0000000⟩ = true → x.lt ⟨0xBF800000⟩ = true → y = ⟨0xBF800000⟩) ∧
    (x.le ⟨0x40000000⟩ = true → x.gt ⟨0x3F800000⟩ = true → y = ⟨0x3F800000⟩) ∧
    (x.ge ⟨0xBF800000⟩ = true → x.le ⟨0x3F800000⟩ = true → y = x) ∧
    y.isFinite = true ∧ y.ge ⟨0xBF800000⟩ = true ∧ y.le ⟨0x3F800000⟩ = true

/-! ## RENDER -/

/-- R323, R324, R326: RENDER while not allocated is refused; so is one that would read a parameter register no PSET has
written, or one out of range; with neither it completes. It reads the output level; with a voice active at the start of
the block the four registers the prologue copies; with a sample to render the noise mix; and with an LFO tick in the block
the tick's registers (which registers a block reads is log 21; that a block completes also below the minimum period is
log 8). Under every configuration a block up to its OUT_CAPACITY (R86) completes where the parameters are legal, and a
longer one, of which the spec says nothing, is refused in every state: the model's choice (log 23). -/
def Obligations.RenderRefusals : Prop :=
  (∀ (stereo : Bool) (n : BitVec 23) (s : State),
    (s.allocated = false → exec (.render stereo n) s = .refused .notAllocated) ∧
    (s.allocated = true →
      ParamPreconditions (.render stereo n) s
        (fun id =>
          id = .outputLevel ∨
          ((∃ v, (s.voice v).env.level.gt ⟨0x38D1B717⟩ = true) ∧
            id ∈ [.detune, .glideRate, .filterQ, .filterEnvDepth]) ∨
          (0 < n.toNat ∧ id = .noiseMix) ∨
          (0 < n.toNat ∧ s.lfoStep ≤ n.toNat ∧
            id ∈ [.lfoInc, .vibrato, .pwmDepth, .filterKeyTracking, .filterLFODepth]))
        (∃ t, exec (.render stereo n) s = .next t))) ∧
  (∀ (c : Config) (stereo : Bool) (n : BitVec 23) (s : State),
    (c.outCapacity < n.toNat → ∃ r, execIn c (.render stereo n) s = .refused r) ∧
    (s.allocated = true → s.p.ready c = true →
      (c.outCapacity < n.toNat → execIn c (.render stereo n) s = .refused .blockBeyondCapacity) ∧
      (n.toNat ≤ c.outCapacity → ∃ t, execIn c (.render stereo n) s = .next t)))

/-- R212, R213, R217: one sample step is NG.NEXT, SYN.LFOSTEP, VOICE.RENDER of the active voices in ascending order into
the two accumulators, SM.NEXT, and the output write; of an oscillator below the minimum period too, evaluated as written
(R325; log 8). -/
def Obligations.SampleStepOrder : Prop :=
  ∀ (stereo : Bool) (k : Nat) (s : State), s.p.ready cfg = true →
    ∃ (a b c : State) (x lvl : F32),
      exec .ngNext s = .next a ∧ a.result = .f32 x ∧ exec .synLfoStep a = .next b ∧
      let noise := x.mul s.p.noiseMix.value
      let visit := fun (acc : State × F32 × F32) (v : VoiceIx) =>
        if (acc.1.voice v).env.level.gt ⟨0x38D1B717⟩ = true then
          match exec (.voiceRender v noise) acc.1 with
          | .next t =>
            match t.result with
            | .f32 o => (t, acc.2.1.add (o.mul (t.voice v).panLeft), acc.2.2.add (o.mul (t.voice v).panRight))
            | _ => acc
          | _ => acc
        else acc
      let mixed := ([0, 1, 2, 3, 4, 5, 6, 7] : List VoiceIx).foldl visit (b, ⟨0⟩, ⟨0⟩)
      exec .smNext mixed.1 = .next c ∧ c.result = .f32 lvl ∧
      let l := mixed.2.1.mul lvl
      let r := mixed.2.2.mul lvl
      sampleStep cfg stereo k s =
        if stereo = true then
          { c with outL := outWrite c.outL k l, outR := outWrite c.outR k r, result := s.result }
        else { c with outL := outWrite c.outL k ((l.add r).mul ⟨0x3F000000⟩), result := s.result }

/-- R210, R211, R218, R219: RENDER is the prologue, `n` sample steps, the end-of-block sweep and the safety pass, when it
is allocated and every parameter is written and in range (R356). That no such block is refused, one with an oscillator
below the minimum period included, is the model's choice (R325; log 8). -/
def Obligations.RenderComposition : Prop :=
  ∀ (stereo : Bool) (n : BitVec 23) (s : State), s.allocated = true → s.p.ready cfg = true →
    let was := fun (v : VoiceIx) => (s.voice v).env.level.gt ⟨0x38D1B717⟩
    ∃ p q t : State,
      exec (.smSet s.p.outputLevel.value) s = .next { s with sm := p.sm } ∧
      p = { s with voices := p.voices, sm := p.sm } ∧
      (∀ v, was v = false → p.voice v = s.voice v) ∧
      (∀ v, was v = true → ∃ u, exec (.synUpdatePeriod v) s = .next u ∧
        p.voice v = { u.voice v with
          glideRate := s.p.glideRate.value
          filterQ := s.p.filterQ.value
          pitchBend := s.pitchBend
          filterEnvDepth := s.p.filterEnvDepth.value }) ∧
      q = (List.range n.toNat).foldl (fun u k => sampleStep cfg stereo k u) p ∧
      exec (.render stereo n) s = .next t ∧
      t = { q with voices := t.voices, outL := t.outL, outR := t.outR } ∧
      (∀ v, (was v = true ∧ (q.voice v).env.level.gt ⟨0x38D1B717⟩ = false →
          exec (.voiceReset v) q = .next (q.setVoice v (t.voice v))) ∧
        (¬(was v = true ∧ (q.voice v).env.level.gt ⟨0x38D1B717⟩ = false) → t.voice v = q.voice v)) ∧
      (∀ k, k < n.toNat →
        exec (.synSafe (outRead .left q.outL k)) q = .next { q with result := .f32 (outRead .left t.outL k) } ∧
        (stereo = true →
          exec (.synSafe (outRead .right q.outR k)) q = .next { q with result := .f32 (outRead .right t.outR k) })) ∧
      (∀ k, n.toNat ≤ k → outWord? t.outL k = outWord? q.outL k ∧ outWord? t.outR k = outWord? q.outR k) ∧
      (stereo = false → t.outR = q.outR)

/-- R219, R61, R111: a RENDER of `n` samples completes when it is allocated and every parameter is written and in range;
the words it wrote are finite and in `[-1.0, 1.0]`; every other word of both buffers is as before, all of OUTR in mono;
the noise seed has moved `n` steps; and of the other registers only those RENDER writes have changed. That no such block
is refused, one with an oscillator below the minimum period included, is the model's choice (R325; log 8). -/
def Obligations.RenderBlockIsSafe : Prop :=
  ∀ (stereo : Bool) (n : BitVec 23) (s : State), s.allocated = true → s.p.ready cfg = true →
    ∃ t, exec (.render stereo n) s = .next t ∧
      (∀ k < n.toNat, ∃ x, outWord? t.outL k = some x ∧ x.isFinite = true ∧ x.ge ⟨0xBF800000⟩ = true ∧
        x.le ⟨0x3F800000⟩ = true) ∧
      (stereo = true → ∀ k < n.toNat, ∃ x, outWord? t.outR k = some x ∧ x.isFinite = true ∧
        x.ge ⟨0xBF800000⟩ = true ∧ x.le ⟨0x3F800000⟩ = true) ∧
      (∀ k, n.toNat ≤ k → outWord? t.outL k = outWord? s.outL k) ∧
      (∀ k, stereo = false ∨ n.toNat ≤ k → outWord? t.outR k = outWord? s.outR k) ∧
      t.ng = (fun x : Word => x * 196314165 + 907633515)^[n.toNat] s.ng ∧
      t = { s with
        ng := t.ng
        voices := t.voices
        lfo := t.lfo
        lfoStep := t.lfoStep
        filterZip := t.filterZip
        sm := t.sm
        outL := t.outL
        outR := t.outR }

/-- R220: RENDER 0 runs the prologue and nothing else. -/
def Obligations.RenderZero : Prop :=
  ∀ (stereo : Bool) (s : State), s.allocated = true → s.p.ready cfg = true →
    ∃ t u, exec (.render stereo 0) s = .next t ∧
      exec (.smSet s.p.outputLevel.value) s = .next u ∧ t = { u with voices := t.voices } ∧
      ∀ v, t.voice v =
        if (s.voice v).env.level.gt ⟨0x38D1B717⟩ = true then
          { s.voice v with
            osc1 := { (s.voice v).osc1 with period := (s.voice v).period.mul s.pitchBend }
            osc2 := { (s.voice v).osc2 with
              period := ((s.voice v).period.mul s.pitchBend).mul s.p.detune.value }
            glideRate := s.p.glideRate.value
            filterQ := s.p.filterQ.value
            pitchBend := s.pitchBend
            filterEnvDepth := s.p.filterEnvDepth.value }
        else s.voice v

/-- R221: with no active voice every word a RENDER writes is a zero, whatever the free functions are, and no voice
changes. -/
def Obligations.RenderSilence : Prop :=
  ∀ (stereo : Bool) (n : BitVec 23) (s : State), s.allocated = true → s.p.ready cfg = true →
    (∀ v, (s.voice v).env.level.gt ⟨0x38D1B717⟩ = false) →
    ∃ t, exec (.render stereo n) s = .next t ∧ t.voices = s.voices ∧
      ∀ k < n.toNat, (outRead .left t.outL k).isZero = true ∧
        (stereo = true → (outRead .right t.outR k).isZero = true)

/-- R218, R28: a voice inactive at the start of a block is not touched by it; a voice that went inactive within the block
has been reset. -/
def Obligations.EndOfBlockSweep : Prop :=
  ∀ (stereo : Bool) (n : BitVec 23) (s t : State), exec (.render stereo n) s = .next t → ∀ v : VoiceIx,
    ((s.voice v).env.level.gt ⟨0x38D1B717⟩ = false → t.voice v = s.voice v) ∧
    ((s.voice v).env.level.gt ⟨0x38D1B717⟩ = true → (t.voice v).env.level.gt ⟨0x38D1B717⟩ = false →
      exec (.voiceReset v) t = .next t)

/-! ## The other preconditions -/

/-- R324, R326: where the other instructions that read parameter registers are refused, and that they complete where they
are not: SYN.CALCPERIOD, SYN.STARTVOICE, SYN.RESTARTMONO (also for a doubling loop that does not end, R274), SYN.LFOSTEP
at a tick, SYN.UPDATEPERIOD. SYN.NOTEON and SYN.NOTEOFF are refused before they know the mode and the velocity; past that
they are refused as what they call (`NoteOnComposition`, `NoteOff`), and the note messages as they are (`MidiDispatch`).
RESET is refused for a sample rate out of range. Under every configuration a first line of zero is refused for its loop.
What out of range is, register by register. Which registers an
instruction reads is log 21, that it is refused before it does anything is logs 7 and 16. -/
def Obligations.ParameterPreconditions : Prop :=
  (∀ s : State,
    (∀ (v : VoiceIx) (note : BitVec 7),
      let first := s.p.tune.value.mul
        (cfg.exp ((F32.mk 0xBD6C9820).mul ((F32.ofInt note.toNat).add ((F32.mk 0x3B03126F).mul (F32.ofInt v.val)))))
      let loop := fun (i : Instr) =>
        (first.gt ⟨0⟩ = false → exec i s = .refused (.paramOutOfRange .periodLoop)) ∧
        (first.gt ⟨0⟩ = true → ∃ t, exec i s = .next t)
      ParamPreconditions (.synCalcPeriod v note) s (fun id => id ∈ [.tune, .detune]) (loop (.synCalcPeriod v note)) ∧
      (∀ vel : BitVec 7,
        ParamPreconditions (.synStartVoice v note vel) s
          (fun id =>
            id ∈ [.tune, .detune, .glideBend, .volumeTrim, .oscMix, .vibrato, .velocitySensitivity] ∨
            id ∈ [.envAttack, .envDecay, .envSustain, .envRelease] ∨
            id ∈ [.filterAttack, .filterDecay, .filterSustain, .filterRelease] ∨
            (s.lastNote ≠ 0 ∧ id = .glideMode) ∨
            (s.p.vibrato.written = true ∧ s.p.vibrato.value.feq ⟨0⟩ = true ∧ id = .pwmDepth))
          (loop (.synStartVoice v note vel))) ∧
      (v = 0 → ∀ vel : BitVec 8,
        ParamPreconditions (.synRestartMono note vel) s
          (fun id => id ∈ [.tune, .detune, .glideMode] ∨ (0 < vel.toInt ∧ id = .velocitySensitivity))
          (loop (.synRestartMono note vel)))) ∧
    (∀ note vel : BitVec 7,
      (s.p.ignoreVelocity.written = false ∨ s.p.numVoices.written = false →
        ∃ id ∈ [ParamId.ignoreVelocity, .numVoices], s.p.written id = false ∧
          exec (.synNoteOn note vel) s = .refused (.unwrittenParam id) ∧
          (vel ≠ 0 → exec (.midiNoteOn note vel) s = .refused (.unwrittenParam id))) ∧
      (s.p.numVoices.written = false →
        exec (.synNoteOff note) s = .refused (.unwrittenParam .numVoices) ∧
        exec (.midiNoteOff note) s = .refused (.unwrittenParam .numVoices) ∧
        exec (.midiNoteOn note 0) s = .refused (.unwrittenParam .numVoices))) ∧
    (s.lfoStep ≤ 1 →
      ParamPreconditions .synLfoStep s
        (fun id =>
          id ∈ [.lfoInc, .vibrato, .pwmDepth, .filterKeyTracking, .filterLFODepth] ∨
          ((∃ v, (s.voice v).env.level.gt ⟨0x38D1B717⟩ = true) ∧ id = .detune))
        (∃ t, exec .synLfoStep s = .next t)) ∧
    (∀ v : VoiceIx,
      ParamPreconditions (.synUpdatePeriod v) s (fun id => id = .detune) (∃ t, exec (.synUpdatePeriod v) s = .next t)) ∧
    (sampleRateInRange cfg s.sampleRate = false → exec .reset s = .refused (.paramOutOfRange .sampleRate)) ∧
    (∀ (c : Config) (v : VoiceIx) (note : BitVec 7),
      s.p.tune.written = true → s.p.detune.written = true → tuneInRange s.p.tune.value = true →
      detuneInRange s.p.detune.value = true → c.minPeriod.gt ⟨0⟩ = true →
      s.p.tune.value.mul (c.exp (c.semi.neg.mul ((F32.ofInt note.toNat).add (c.analog.mul (F32.ofInt v.val))))) = ⟨0⟩ →
      execIn c (.synCalcPeriod v note) s = .refused (.paramOutOfRange .periodLoop))) ∧
  (∀ p : Params,
    (p.inRange cfg .tune = true ↔ p.tune.value.isNormal = true ∧ p.tune.value.gt ⟨0⟩ = true) ∧
    (p.inRange cfg .detune = true ↔ p.detune.value.isFinite = true ∧ p.detune.value.gt ⟨0⟩ = true) ∧
    (∀ x ∈ [(ParamId.envAttack, p.envAttack.value), (.envDecay, p.envDecay.value), (.envRelease, p.envRelease.value),
        (.filterAttack, p.filterAttack.value), (.filterDecay, p.filterDecay.value),
        (.filterRelease, p.filterRelease.value)],
      (p.inRange cfg x.1 = true ↔ x.2.ge ⟨0⟩ = true ∧ x.2.lt ⟨0x3F800000⟩ = true)) ∧
    (∀ x ∈ [(ParamId.envSustain, p.envSustain.value), (.filterSustain, p.filterSustain.value)],
      (p.inRange cfg x.1 = true ↔ x.2.ge ⟨0⟩ = true ∧ x.2.le ⟨0x3F800000⟩ = true)) ∧
    (p.inRange cfg .glideRate = true ↔ p.glideRate.value.gt ⟨0⟩ = true ∧ p.glideRate.value.le ⟨0x3F800000⟩ = true) ∧
    (p.inRange cfg .lfoInc = true ↔ p.lfoInc.value.ge ⟨0⟩ = true ∧ p.lfoInc.value.lt ⟨0x40C90FDB⟩ = true) ∧
    (∀ x ∈ [(ParamId.noiseMix, p.noiseMix.value), (.oscMix, p.oscMix.value), (.volumeTrim, p.volumeTrim.value),
        (.outputLevel, p.outputLevel.value), (.velocitySensitivity, p.velocitySensitivity.value),
        (.vibrato, p.vibrato.value), (.pwmDepth, p.pwmDepth.value), (.glideBend, p.glideBend.value),
        (.filterKeyTracking, p.filterKeyTracking.value), (.filterQ, p.filterQ.value),
        (.filterLFODepth, p.filterLFODepth.value), (.filterEnvDepth, p.filterEnvDepth.value)],
      p.inRange cfg x.1 = x.2.isFinite) ∧
    p.inRange cfg .numVoices = true ∧ p.inRange cfg .ignoreVelocity = true ∧ p.inRange cfg .glideMode = true)

end Obligations
end

