-- ==== Sys2Proof/Laws/Bank.lean ====
section
/-! SUPPORT. The laws of a bank of eight: reading after writing, images, and what a scan of the list sees. -/

namespace Sys2Proof

variable {α β γ : Type}

@[simp] theorem Bank.get_zero (b : Bank α) : b.get 0 = b.v0 := rfl
@[simp] theorem Bank.get_one (b : Bank α) : b.get 1 = b.v1 := rfl
@[simp] theorem Bank.get_two (b : Bank α) : b.get 2 = b.v2 := rfl
@[simp] theorem Bank.get_three (b : Bank α) : b.get 3 = b.v3 := rfl
@[simp] theorem Bank.get_four (b : Bank α) : b.get 4 = b.v4 := rfl
@[simp] theorem Bank.get_five (b : Bank α) : b.get 5 = b.v5 := rfl
@[simp] theorem Bank.get_six (b : Bank α) : b.get 6 = b.v6 := rfl
@[simp] theorem Bank.get_seven (b : Bank α) : b.get 7 = b.v7 := rfl

/-- A case for each of the eight indices. -/
theorem forall_voiceIx {P : VoiceIx → Prop} (h0 : P 0) (h1 : P 1) (h2 : P 2) (h3 : P 3) (h4 : P 4) (h5 : P 5)
    (h6 : P 6) (h7 : P 7) (i : VoiceIx) : P i := by
  match i with
  | 0 => exact h0
  | 1 => exact h1
  | 2 => exact h2
  | 3 => exact h3
  | 4 => exact h4
  | 5 => exact h5
  | 6 => exact h6
  | 7 => exact h7

theorem Bank.get_set (b : Bank α) (i j : VoiceIx) (x : α) : (b.set i x).get j = if i = j then x else b.get j := by
  fin_cases i <;> fin_cases j <;> rfl

@[simp] theorem Bank.get_set_same (b : Bank α) (i : VoiceIx) (x : α) : (b.set i x).get i = x := by
  simp [Bank.get_set]

theorem Bank.get_set_other (b : Bank α) {i j : VoiceIx} (h : i ≠ j) (x : α) : (b.set i x).get j = b.get j := by
  simp [Bank.get_set, h]

@[simp] theorem Bank.get_map (f : α → β) (b : Bank α) (i : VoiceIx) : (b.map f).get i = f (b.get i) := by
  fin_cases i <;> rfl

@[simp] theorem Bank.get_all (x : α) (i : VoiceIx) : (Bank.all x).get i = x := by
  fin_cases i <;> rfl

@[simp] theorem Bank.get_zip (f : α → β → γ) (a : Bank α) (b : Bank β) (i : VoiceIx) :
    (Bank.zip f a b).get i = f (a.get i) (b.get i) := by
  fin_cases i <;> rfl

/-- Two banks with equal elements are equal. -/
theorem Bank.ext_get {a b : Bank α} (h : ∀ i, a.get i = b.get i) : a = b := by
  have h0 : a.v0 = b.v0 := h 0
  have h1 : a.v1 = b.v1 := h 1
  have h2 : a.v2 = b.v2 := h 2
  have h3 : a.v3 = b.v3 := h 3
  have h4 : a.v4 = b.v4 := h 4
  have h5 : a.v5 = b.v5 := h 5
  have h6 : a.v6 = b.v6 := h 6
  have h7 : a.v7 = b.v7 := h 7
  obtain ⟨_, _, _, _, _, _, _, _⟩ := a
  obtain ⟨_, _, _, _, _, _, _, _⟩ := b
  simp only [Bank.mk.injEq]
  exact ⟨h0, h1, h2, h3, h4, h5, h6, h7⟩

theorem Bank.mem_toList {b : Bank α} {x : α} : x ∈ b.toList ↔ ∃ i, b.get i = x := by
  constructor
  · intro h
    simp only [Bank.toList, List.mem_cons, List.not_mem_nil, or_false] at h
    rcases h with h | h | h | h | h | h | h | h
    exacts [⟨0, h.symm⟩, ⟨1, h.symm⟩, ⟨2, h.symm⟩, ⟨3, h.symm⟩, ⟨4, h.symm⟩, ⟨5, h.symm⟩, ⟨6, h.symm⟩, ⟨7, h.symm⟩]
  · rintro ⟨i, rfl⟩
    fin_cases i <;> simp [Bank.toList]

end Sys2Proof
end

