-- ==== Sys2Proof/Laws/State.lean ====
section
/-! SUPPORT. What each named update of the state writes and leaves: one lemma for each field and update, true by
unfolding, so that no later proof unfolds a record update. -/

namespace Sys2Proof.Machine

/-! ## setVoice -/

@[simp] theorem State.setVoice_ng (s : State) (v : VoiceIx) (x : Voice) : (s.setVoice v x).ng = s.ng := rfl
@[simp] theorem State.setVoice_voices (s : State) (v : VoiceIx) (x : Voice) : (s.setVoice v x).voices = s.voices.set v x := rfl
@[simp] theorem State.setVoice_sampleRate (s : State) (v : VoiceIx) (x : Voice) : (s.setVoice v x).sampleRate = s.sampleRate := rfl
@[simp] theorem State.setVoice_allocated (s : State) (v : VoiceIx) (x : Voice) : (s.setVoice v x).allocated = s.allocated := rfl
@[simp] theorem State.setVoice_lfo (s : State) (v : VoiceIx) (x : Voice) : (s.setVoice v x).lfo = s.lfo := rfl
@[simp] theorem State.setVoice_lfoStep (s : State) (v : VoiceIx) (x : Voice) : (s.setVoice v x).lfoStep = s.lfoStep := rfl
@[simp] theorem State.setVoice_filterZip (s : State) (v : VoiceIx) (x : Voice) : (s.setVoice v x).filterZip = s.filterZip := rfl
@[simp] theorem State.setVoice_lastNote (s : State) (v : VoiceIx) (x : Voice) : (s.setVoice v x).lastNote = s.lastNote := rfl
@[simp] theorem State.setVoice_pitchBend (s : State) (v : VoiceIx) (x : Voice) : (s.setVoice v x).pitchBend = s.pitchBend := rfl
@[simp] theorem State.setVoice_modWheel (s : State) (v : VoiceIx) (x : Voice) : (s.setVoice v x).modWheel = s.modWheel := rfl
@[simp] theorem State.setVoice_pressure (s : State) (v : VoiceIx) (x : Voice) : (s.setVoice v x).pressure = s.pressure := rfl
@[simp] theorem State.setVoice_filterCtl (s : State) (v : VoiceIx) (x : Voice) : (s.setVoice v x).filterCtl = s.filterCtl := rfl
@[simp] theorem State.setVoice_sustainPedal (s : State) (v : VoiceIx) (x : Voice) : (s.setVoice v x).sustainPedal = s.sustainPedal := rfl
@[simp] theorem State.setVoice_sm (s : State) (v : VoiceIx) (x : Voice) : (s.setVoice v x).sm = s.sm := rfl
@[simp] theorem State.setVoice_p (s : State) (v : VoiceIx) (x : Voice) : (s.setVoice v x).p = s.p := rfl
@[simp] theorem State.setVoice_outL (s : State) (v : VoiceIx) (x : Voice) : (s.setVoice v x).outL = s.outL := rfl
@[simp] theorem State.setVoice_outR (s : State) (v : VoiceIx) (x : Voice) : (s.setVoice v x).outR = s.outR := rfl
@[simp] theorem State.setVoice_port (s : State) (v : VoiceIx) (x : Voice) : (s.setVoice v x).port = s.port := rfl
@[simp] theorem State.setVoice_result (s : State) (v : VoiceIx) (x : Voice) : (s.setVoice v x).result = s.result := rfl

/-! ## mapVoices -/

@[simp] theorem State.mapVoices_ng (s : State) (f : Voice → Voice) : (s.mapVoices f).ng = s.ng := rfl
@[simp] theorem State.mapVoices_voices (s : State) (f : Voice → Voice) : (s.mapVoices f).voices = s.voices.map f := rfl
@[simp] theorem State.mapVoices_sampleRate (s : State) (f : Voice → Voice) : (s.mapVoices f).sampleRate = s.sampleRate := rfl
@[simp] theorem State.mapVoices_allocated (s : State) (f : Voice → Voice) : (s.mapVoices f).allocated = s.allocated := rfl
@[simp] theorem State.mapVoices_lfo (s : State) (f : Voice → Voice) : (s.mapVoices f).lfo = s.lfo := rfl
@[simp] theorem State.mapVoices_lfoStep (s : State) (f : Voice → Voice) : (s.mapVoices f).lfoStep = s.lfoStep := rfl
@[simp] theorem State.mapVoices_filterZip (s : State) (f : Voice → Voice) : (s.mapVoices f).filterZip = s.filterZip := rfl
@[simp] theorem State.mapVoices_lastNote (s : State) (f : Voice → Voice) : (s.mapVoices f).lastNote = s.lastNote := rfl
@[simp] theorem State.mapVoices_pitchBend (s : State) (f : Voice → Voice) : (s.mapVoices f).pitchBend = s.pitchBend := rfl
@[simp] theorem State.mapVoices_modWheel (s : State) (f : Voice → Voice) : (s.mapVoices f).modWheel = s.modWheel := rfl
@[simp] theorem State.mapVoices_pressure (s : State) (f : Voice → Voice) : (s.mapVoices f).pressure = s.pressure := rfl
@[simp] theorem State.mapVoices_filterCtl (s : State) (f : Voice → Voice) : (s.mapVoices f).filterCtl = s.filterCtl := rfl
@[simp] theorem State.mapVoices_sustainPedal (s : State) (f : Voice → Voice) : (s.mapVoices f).sustainPedal = s.sustainPedal := rfl
@[simp] theorem State.mapVoices_sm (s : State) (f : Voice → Voice) : (s.mapVoices f).sm = s.sm := rfl
@[simp] theorem State.mapVoices_p (s : State) (f : Voice → Voice) : (s.mapVoices f).p = s.p := rfl
@[simp] theorem State.mapVoices_outL (s : State) (f : Voice → Voice) : (s.mapVoices f).outL = s.outL := rfl
@[simp] theorem State.mapVoices_outR (s : State) (f : Voice → Voice) : (s.mapVoices f).outR = s.outR := rfl
@[simp] theorem State.mapVoices_port (s : State) (f : Voice → Voice) : (s.mapVoices f).port = s.port := rfl
@[simp] theorem State.mapVoices_result (s : State) (f : Voice → Voice) : (s.mapVoices f).result = s.result := rfl

/-! ## setResult -/

@[simp] theorem State.setResult_ng (s : State) (r : MicroResult) : (s.setResult r).ng = s.ng := rfl
@[simp] theorem State.setResult_voices (s : State) (r : MicroResult) : (s.setResult r).voices = s.voices := rfl
@[simp] theorem State.setResult_sampleRate (s : State) (r : MicroResult) : (s.setResult r).sampleRate = s.sampleRate := rfl
@[simp] theorem State.setResult_allocated (s : State) (r : MicroResult) : (s.setResult r).allocated = s.allocated := rfl
@[simp] theorem State.setResult_lfo (s : State) (r : MicroResult) : (s.setResult r).lfo = s.lfo := rfl
@[simp] theorem State.setResult_lfoStep (s : State) (r : MicroResult) : (s.setResult r).lfoStep = s.lfoStep := rfl
@[simp] theorem State.setResult_filterZip (s : State) (r : MicroResult) : (s.setResult r).filterZip = s.filterZip := rfl
@[simp] theorem State.setResult_lastNote (s : State) (r : MicroResult) : (s.setResult r).lastNote = s.lastNote := rfl
@[simp] theorem State.setResult_pitchBend (s : State) (r : MicroResult) : (s.setResult r).pitchBend = s.pitchBend := rfl
@[simp] theorem State.setResult_modWheel (s : State) (r : MicroResult) : (s.setResult r).modWheel = s.modWheel := rfl
@[simp] theorem State.setResult_pressure (s : State) (r : MicroResult) : (s.setResult r).pressure = s.pressure := rfl
@[simp] theorem State.setResult_filterCtl (s : State) (r : MicroResult) : (s.setResult r).filterCtl = s.filterCtl := rfl
@[simp] theorem State.setResult_sustainPedal (s : State) (r : MicroResult) : (s.setResult r).sustainPedal = s.sustainPedal := rfl
@[simp] theorem State.setResult_sm (s : State) (r : MicroResult) : (s.setResult r).sm = s.sm := rfl
@[simp] theorem State.setResult_p (s : State) (r : MicroResult) : (s.setResult r).p = s.p := rfl
@[simp] theorem State.setResult_outL (s : State) (r : MicroResult) : (s.setResult r).outL = s.outL := rfl
@[simp] theorem State.setResult_outR (s : State) (r : MicroResult) : (s.setResult r).outR = s.outR := rfl
@[simp] theorem State.setResult_port (s : State) (r : MicroResult) : (s.setResult r).port = s.port := rfl
@[simp] theorem State.setResult_result (s : State) (r : MicroResult) : (s.setResult r).result = r := rfl

/-! ## Reading a bank -/

theorem State.voice_eq (s : State) (v : VoiceIx) : s.voice v = s.voices.get v := rfl

@[simp] theorem State.voice_setVoice_same (s : State) (v : VoiceIx) (x : Voice) : (s.setVoice v x).voice v = x := by
  simp [State.voice]

theorem State.voice_setVoice (s : State) (v w : VoiceIx) (x : Voice) :
    (s.setVoice v x).voice w = if v = w then x else s.voice w := by
  simp [State.voice, Bank.get_set]

theorem State.voice_setVoice_other (s : State) {v w : VoiceIx} (h : v ≠ w) (x : Voice) :
    (s.setVoice v x).voice w = s.voice w := by
  simp [State.voice_setVoice, h]

@[simp] theorem State.voice_mapVoices (s : State) (f : Voice → Voice) (v : VoiceIx) :
    (s.mapVoices f).voice v = f (s.voice v) := by
  simp [State.voice]

@[simp] theorem State.voice_setResult (s : State) (r : MicroResult) (v : VoiceIx) :
    (s.setResult r).voice v = s.voice v := rfl

/-! ## Envelopes and oscillators of a voice -/

@[simp] theorem Voice.envOf_amp (v : Voice) : v.envOf .amp = v.env := rfl
@[simp] theorem Voice.envOf_filt (v : Voice) : v.envOf .filt = v.fenv := rfl
@[simp] theorem Voice.setEnv_amp (v : Voice) (x : Envelope) : v.setEnv .amp x = { v with env := x } := rfl
@[simp] theorem Voice.setEnv_filt (v : Voice) (x : Envelope) : v.setEnv .filt x = { v with fenv := x } := rfl
@[simp] theorem Voice.oscOf_one (v : Voice) : v.oscOf .one = v.osc1 := rfl
@[simp] theorem Voice.oscOf_two (v : Voice) : v.oscOf .two = v.osc2 := rfl
@[simp] theorem Voice.setOsc_one (v : Voice) (x : Oscillator) : v.setOsc .one x = { v with osc1 := x } := rfl
@[simp] theorem Voice.setOsc_two (v : Voice) (x : Oscillator) : v.setOsc .two x = { v with osc2 := x } := rfl

@[simp] theorem Voice.note_setEnv (v : Voice) (e : EnvSel) (x : Envelope) : (v.setEnv e x).note = v.note := by
  cases e <;> rfl

@[simp] theorem Voice.note_setOsc (v : Voice) (o : OscSel) (x : Oscillator) : (v.setOsc o x).note = v.note := by
  cases o <;> rfl

end Sys2Proof.Machine
end

