-- ==== Sys2Proof/Laws/Ops.lean ====
section
/-! SUPPORT. What a guarded command answers, and when the preconditions on the parameter file hold (spec
60_exceptions.md R322 to R326). -/

namespace Sys2Proof.Machine

/-! ## A guarded command -/

@[simp] theorem guarded_none (t : State) : guarded none t = .next t := rfl
@[simp] theorem guarded_some (r : Refusal) (t : State) : guarded (some r) t = .refused r := rfl

/-- A guarded command answers a next state exactly when no precondition is broken, and then its effect. -/
theorem guarded_eq_next {refusal : Option Refusal} {t u : State} :
    guarded refusal t = .next u ↔ refusal = none ∧ t = u := by
  cases refusal <;> simp [guarded]

theorem guarded_eq_refused {refusal : Option Refusal} {t : State} {r : Refusal} :
    guarded refusal t = .refused r ↔ refusal = some r := by
  cases refusal <;> simp [guarded]

theorem guarded_ne_fault (refusal : Option Refusal) (t : State) (f : Fault) : guarded refusal t ≠ .fault f := by
  cases f

/-! ## The parameter file -/

/-- The preconditions on the registers `ids` hold exactly when each is written and in range. -/
theorem checkReads_eq_none {c : Config} {p : Params} {ids : List ParamId} :
    checkReads c p ids = none ↔ ∀ id ∈ ids, p.written id = true ∧ p.inRange c id = true := by
  unfold checkReads
  split
  · rename_i id h
    have h1 := List.mem_of_find?_eq_some h
    have h2 := List.find?_some h
    simp only [reduceCtorEq, false_iff, not_forall]
    exact ⟨id, h1, by simp_all⟩
  · rename_i h
    rw [List.find?_eq_none] at h
    split
    · rename_i id h'
      have h1 := List.mem_of_find?_eq_some h'
      have h2 := List.find?_some h'
      simp only [reduceCtorEq, false_iff, not_forall]
      exact ⟨id, h1, by simp_all⟩
    · rename_i h'
      rw [List.find?_eq_none] at h'
      simp only [true_iff]
      intro id hid
      exact ⟨by simpa using h id hid, by simpa using h' id hid⟩

/-- A broken precondition names its class. -/
theorem checkReads_eq_some {c : Config} {p : Params} {ids : List ParamId} {r : Refusal}
    (h : checkReads c p ids = some r) : (∃ id, r = .unwrittenParam id) ∨ ∃ what, r = .paramOutOfRange what := by
  unfold checkReads at h
  split at h
  · simp at h; exact .inl ⟨_, h.symm⟩
  · split at h
    · simp at h; exact .inr ⟨_, h.symm⟩
    · simp at h

/-- A check on a register no PSET has written names one that is not (R324). -/
theorem checkReads_unwritten {c : Config} {p : Params} {ids : List ParamId}
    (h : ∃ id ∈ ids, p.written id = false) :
    ∃ id ∈ ids, p.written id = false ∧ checkReads c p ids = some (.unwrittenParam id) := by
  obtain ⟨id, hm, hw⟩ := h
  cases hf : ids.find? (fun id => !p.written id) with
  | none => exact absurd hw (by simpa using List.find?_eq_none.1 hf id hm)
  | some j =>
    have hj := List.find?_some hf
    exact ⟨j, List.mem_of_find?_eq_some hf, by simpa using hj, by simp [checkReads, hf]⟩

/-- A check on written registers one of which is out of range names one that is (R326). -/
theorem checkReads_outOfRange {c : Config} {p : Params} {ids : List ParamId} (hw : ∀ id ∈ ids, p.written id = true)
    (h : ∃ id ∈ ids, p.inRange c id = false) :
    ∃ id ∈ ids, p.inRange c id = false ∧ checkReads c p ids = some (.paramOutOfRange (.param id)) := by
  have hn : ids.find? (fun id => !p.written id) = none := List.find?_eq_none.2 (by simpa using hw)
  obtain ⟨id, hm, hr⟩ := h
  cases hf : ids.find? (fun id => !p.inRange c id) with
  | none => exact absurd hr (by simpa using List.find?_eq_none.1 hf id hm)
  | some j =>
    have hj := List.find?_some hf
    exact ⟨j, List.mem_of_find?_eq_some hf, by simpa using hj, by simp [checkReads, hn, hf]⟩

/-- Every register is in the list of registers. -/
theorem ParamId.mem_all (id : ParamId) : id ∈ ParamId.all := by cases id <;> decide

theorem Params.ready_iff {c : Config} {p : Params} :
    p.ready c = true ↔ ∀ id, p.written id = true ∧ p.inRange c id = true := by
  simp [Params.ready, List.all_eq_true, ParamId.mem_all]

/-- After the boot of R356 no parameter precondition is broken. -/
theorem checkReads_of_ready {c : Config} {p : Params} (h : p.ready c = true) (ids : List ParamId) :
    checkReads c p ids = none :=
  checkReads_eq_none.2 (fun id _ => Params.ready_iff.1 h id)

/-- A register that is written and in range does not change what a check answers. -/
theorem checkReads_cons {c : Config} {p : Params} {id : ParamId} (hw : p.written id = true)
    (hr : p.inRange c id = true) (ids : List ParamId) : checkReads c p (id :: ids) = checkReads c p ids := by
  simp [checkReads, hw, hr]

/-! ## The clauses of a check, by register -/

theorem Params.ready_detune {p : Params} (h : p.ready cfg = true) : detuneInRange p.detune.value = true :=
  (Params.ready_iff.1 h .detune).2

theorem Params.ready_tune {p : Params} (h : p.ready cfg = true) : tuneInRange p.tune.value = true :=
  (Params.ready_iff.1 h .tune).2

end Sys2Proof.Machine
end

