-- ==== Sys2Proof/Laws/Frame.lean ====
section
/-! SUPPORT. What each composite operation leaves alone: one lemma for each, saying that the state after is the state
before with only the named registers replaced. A field that is not named is read off by rewriting with the lemma. -/

namespace Sys2Proof.Machine

theorem startVoice_frame (c : Config) (v : VoiceIx) (note vel : BitVec 7) (s : State) :
    startVoice c v note vel s =
      { s with voices := (startVoice c v note vel s).voices, lastNote := noteReg note } := rfl

theorem restartMono_frame (c : Config) (note : BitVec 8) (vel : Int) (s : State) :
    restartMono c note vel s = { s with voices := (restartMono c note vel s).voices } := rfl

theorem shiftQ_frame (s : State) : shiftQ s = { s with voices := (shiftQ s).voices } := rfl

theorem nextQPop_frame (s : State) : nextQPop s = { s with voices := (nextQPop s).voices } := by
  unfold nextQPop; split <;> rfl

theorem noteOn_frame (c : Config) (note vel : BitVec 7) (s : State) :
    noteOn c note vel s =
      { s with voices := (noteOn c note vel s).voices, lastNote := (noteOn c note vel s).lastNote } := by
  unfold noteOn; dsimp only; split
  · split
    · rw [restartMono_frame, shiftQ_frame]
    · rw [startVoice_frame]
  · rw [startVoice_frame]

theorem noteOff_frame (c : Config) (note : BitVec 7) (s : State) :
    noteOff c note s = { s with voices := (noteOff c note s).voices } := by
  unfold noteOff; split
  · rw [restartMono_frame, nextQPop_frame]
  · rfl

theorem lfoTick_frame (c : Config) (s : State) :
    lfoTick c s =
      { s with
        lfo := (lfoTick c s).lfo
        lfoStep := (lfoTick c s).lfoStep
        filterZip := (lfoTick c s).filterZip
        voices := (lfoTick c s).voices } := rfl

theorem lfoStep_frame (c : Config) (s : State) :
    lfoStep c s =
      { s with
        lfo := (lfoStep c s).lfo
        lfoStep := (lfoStep c s).lfoStep
        filterZip := (lfoStep c s).filterZip
        voices := (lfoStep c s).voices } := by
  unfold lfoStep; split <;> rfl

theorem writeSample_frame (stereo : Bool) (k : Nat) (l r : F32) (s : State) :
    writeSample stereo k l r s =
      { s with outL := (writeSample stereo k l r s).outL, outR := (writeSample stereo k l r s).outR } := by
  unfold writeSample; split <;> rfl

theorem sampleStep_frame (c : Config) (stereo : Bool) (k : Nat) (s : State) :
    sampleStep c stereo k s =
      { s with
        ng := noiseSeedNext c s.ng
        lfo := (sampleStep c stereo k s).lfo
        lfoStep := (sampleStep c stereo k s).lfoStep
        filterZip := (sampleStep c stereo k s).filterZip
        voices := (sampleStep c stereo k s).voices
        sm := (sampleStep c stereo k s).sm
        outL := (sampleStep c stereo k s).outL
        outR := (sampleStep c stereo k s).outR } := by
  unfold sampleStep; dsimp only; rw [writeSample_frame, lfoStep_frame]

theorem sampleSteps_frame (c : Config) (stereo : Bool) (count k : Nat) (s : State) :
    sampleSteps c stereo count k s =
      { s with
        ng := (noiseSeedNext c)^[count] s.ng
        lfo := (sampleSteps c stereo count k s).lfo
        lfoStep := (sampleSteps c stereo count k s).lfoStep
        filterZip := (sampleSteps c stereo count k s).filterZip
        voices := (sampleSteps c stereo count k s).voices
        sm := (sampleSteps c stereo count k s).sm
        outL := (sampleSteps c stereo count k s).outL
        outR := (sampleSteps c stereo count k s).outR } := by
  induction count generalizing k s with
  | zero => rfl
  | succ n ih =>
    simp only [sampleSteps, Function.iterate_succ, Function.comp]
    rw [ih, sampleStep_frame]

theorem renderBlock_frame (c : Config) (stereo : Bool) (n : Nat) (s : State) :
    renderBlock c stereo n s =
      { s with
        ng := (noiseSeedNext c)^[n] s.ng
        lfo := (renderBlock c stereo n s).lfo
        lfoStep := (renderBlock c stereo n s).lfoStep
        filterZip := (renderBlock c stereo n s).filterZip
        voices := (renderBlock c stereo n s).voices
        sm := (renderBlock c stereo n s).sm
        outL := (renderBlock c stereo n s).outL
        outR := (renderBlock c stereo n s).outR } := by
  unfold renderBlock safetyPass; dsimp only; rw [sampleSteps_frame]; rfl

theorem controlChange_frame (c : Config) (ctl val : BitVec 7) (s : State) :
    controlChange c ctl val s =
      { s with
        modWheel := (controlChange c ctl val s).modWheel
        filterCtl := (controlChange c ctl val s).filterCtl
        sustainPedal := (controlChange c ctl val s).sustainPedal
        voices := (controlChange c ctl val s).voices } := by
  unfold controlChange sustainCc; dsimp only; repeat' split
  all_goals rfl

/-! ## The note messages -/

theorem noteOffMsg_eq_next {c : Config} {note : BitVec 7} {s t : State} :
    noteOffMsg c note s = .next t ↔ noteOffRefusal c note s = none ∧ noteOff c note s = t := guarded_eq_next

theorem noteOnMsg_eq_next {c : Config} {note vel : BitVec 7} {s t : State} (h : noteOnMsg c note vel s = .next t) :
    t = { s with voices := t.voices, lastNote := t.lastNote } := by
  unfold noteOnMsg at h
  split at h
  · rw [← (noteOffMsg_eq_next.1 h).2]; rw [noteOff_frame]
  · rw [← (guarded_eq_next.1 h).2]; rw [noteOn_frame]

/-- What a MIDI message leaves alone, whatever its bytes. -/
theorem midiMessage_frame {c : Config} {b0 b1 b2 : BitVec 8} {s t : State} (h : midiMessage c b0 b1 b2 s = .next t) :
    t = { s with
      voices := t.voices
      lastNote := t.lastNote
      pitchBend := t.pitchBend
      pressure := t.pressure
      modWheel := t.modWheel
      filterCtl := t.filterCtl
      sustainPedal := t.sustainPedal } := by
  unfold midiMessage at h
  dsimp only at h
  split at h
  · rw [← (noteOffMsg_eq_next.1 h).2, noteOff_frame]
  · rw [noteOnMsg_eq_next h]
  · simp only [Host.Outcome.next.injEq] at h; rw [← h, controlChange_frame]
  · simp only [Host.Outcome.next.injEq] at h; rw [← h]; rfl
  · simp only [Host.Outcome.next.injEq] at h; rw [← h]; rfl
  · simp only [Host.Outcome.next.injEq] at h; rw [← h]

end Sys2Proof.Machine
end

