-- ==== Sys2Proof/Laws/Allocation.lean ====
section
/-! SUPPORT. The doubling loop of SYN.CALCPERIOD and the conversions between the note registers and the numbers the rules
speak of (spec 47_voice_allocation.md R274, 00_scope.md R16 (d)). -/

namespace Sys2Proof.Machine

/-- `isHeld` is the signed test of R16 (d). -/
theorem isHeld_iff (n : BitVec 8) : isHeld n = true ↔ 0 < n.toInt := by
  revert n
  decide

/-- A note number in a note register, read signed. -/
@[simp] theorem noteReg_toInt (n : BitVec 7) : (noteReg n).toInt = n.toNat := by
  revert n
  decide

/-- What the doubling loop returns: some number of doublings, each of them on a period that was too short; with fuel to
spare the result is not too short (R274). -/
theorem doublePeriod_spec (c : Config) (detune : F32) (fuel : Nat) (per : F32) :
    ∃ k ≤ fuel, doublePeriod c detune fuel per = (fun x : F32 => x.add x)^[k] per ∧
      (∀ j < k, periodTooShort c detune ((fun x : F32 => x.add x)^[j] per) = true) ∧
      (k < fuel → periodTooShort c detune (doublePeriod c detune fuel per) = false) := by
  induction fuel generalizing per with
  | zero => exact ⟨0, le_refl _, rfl, by simp, by simp⟩
  | succ n ih =>
    unfold doublePeriod
    by_cases h : periodTooShort c detune per = true
    · obtain ⟨k, a, b, e, f⟩ := ih (per.add per)
      rw [if_pos h]
      refine ⟨k + 1, by omega, ?_, ?_, fun hk => f (by omega)⟩
      · rw [b, Function.iterate_succ]
        rfl
      · intro j hj
        cases j with
        | zero => exact h
        | succ j =>
          rw [Function.iterate_succ]
          exact e j (by omega)
    · rw [if_neg h]
      exact ⟨0, by omega, rfl, by simp, fun _ => by simpa using h⟩

/-- SYN.CALCPERIOD is refused for its loop exactly when the loop's result is too short. -/
theorem periodRefusal_eq_none {c : Config} {p : Params} {v : VoiceIx} {note : Int} :
    periodRefusal c p v note = none ↔ periodTooShort c p.detune.value (calcPeriod c p v note) = false := by
  unfold periodRefusal
  split <;> simp_all

end Sys2Proof.Machine
end

