-- ==== Sys2Proof/Laws/AnyConfig.lean ====
section
/-! SUPPORT. At the configuration in force the machine of an arbitrary configuration is the machine: a claim stated for
every configuration is one about `exec` and `step`. -/

namespace Sys2Proof.Machine

/-- Executing under the configuration in force. -/
theorem execIn_cfg (i : Instr) (s : State) : execIn cfg i s = exec i s := by
  cases i <;> rfl

/-- Stepping under the configuration in force. -/
theorem stepIn_cfg (s : State) : stepIn cfg s = step s := by
  unfold stepIn step decode
  cases s.port with
  | nil => rfl
  | cons w rest =>
    simp only []
    cases decodeIn cfg w with
    | ok i => exact execIn_cfg i _
    | error e => rfl

/-- The power-on state of the configuration in force. -/
theorem resetIn_cfg : State.resetIn cfg = State.reset := rfl

/-- The decoder of the configuration in force. -/
theorem decodeIn_cfg (w : PortWord) : decodeIn cfg w = decode w := rfl

/-- The encoder of the configuration in force. -/
theorem encodeIn_cfg (i : Instr) : encodeIn cfg i = encode i := rfl

end Sys2Proof.Machine
end

