-- ==== Sys2Proof/Laws/Decode.lean ====
section
/-! SUPPORT. Bit fields of concatenated words, and what the decoder and the encoder do with each format (spec
30_encoding.md R81 to R91, log 11), so that a proof about an encoding never unfolds a field. -/

namespace Sys2Proof

/-- The high part of a concatenation. -/
theorem extract_append_hi {m n : Nat} (x : BitVec m) (y : BitVec n) : (x ++ y).extractLsb' n m = x := by
  apply BitVec.eq_of_getLsbD_eq
  intro i hi
  simp [BitVec.getLsbD_append, hi]

/-- A field inside the low part of a concatenation. -/
theorem extract_append_low {m n s l : Nat} (x : BitVec m) (y : BitVec n) (h : s + l ≤ n) :
    (x ++ y).extractLsb' s l = y.extractLsb' s l := by
  apply BitVec.eq_of_getLsbD_eq
  intro i hi
  simp [BitVec.getLsbD_append, hi]
  omega

/-- A field inside the high part of a concatenation. -/
theorem extract_append_high {m n s l : Nat} (x : BitVec m) (y : BitVec n) (h : n ≤ s) :
    (x ++ y).extractLsb' s l = x.extractLsb' (s - n) l := by
  apply BitVec.eq_of_getLsbD_eq
  intro i hi
  simp only [BitVec.getLsbD_append, BitVec.getLsbD_extractLsb', hi]
  rw [if_neg (by omega)]
  congr 2
  omega

/-- A bit of the low part of a concatenation. -/
theorem bit_append_low {m n i : Nat} (x : BitVec m) (y : BitVec n) (h : i < n) :
    (x ++ y).getLsbD i = y.getLsbD i := by
  rw [BitVec.getLsbD_append, if_pos h]

/-- A bit of the high part of a concatenation. -/
theorem bit_append_high {m n i : Nat} (x : BitVec m) (y : BitVec n) (h : n ≤ i) :
    (x ++ y).getLsbD i = x.getLsbD (i - n) := by
  rw [BitVec.getLsbD_append, if_neg (by omega)]

/-- The field that is the whole word. -/
theorem extract_all {n : Nat} (x : BitVec n) : x.extractLsb' 0 n = x := by
  apply BitVec.eq_of_getLsbD_eq
  intro i hi
  simp [hi]

/-- A voice's field names the voice. -/
@[simp] theorem voiceOf_voiceBits (v : VoiceIx) : voiceOf (voiceBits v) = v := by
  revert v
  decide

/-- Every three-bit field is some voice's. -/
@[simp] theorem voiceBits_voiceOf (b : BitVec 3) : voiceBits (voiceOf b) = b := by
  revert b
  decide

/-- The decoder on an opcode and an immediate (R81, R82). -/
theorem decodeCommandIn_append (c : Config) (op : BitVec 8) (imm : BitVec 24) (wdata : Word) :
    decodeCommandIn c (op ++ imm) wdata =
      match op.toNat with
      | 0x00 => .nop
      | 0x01 => .reset
      | 0x02 => .alloc imm ⟨wdata⟩
      | 0x03 => .dealloc
      | 0x04 => decodePset (imm.extractLsb' 0 8) wdata
      | 0x05 => decodeMidiIn c (imm.extractLsb' 16 8) (imm.extractLsb' 8 8) (imm.extractLsb' 0 8)
      | 0x06 => .render (imm.getLsbD 23) (imm.extractLsb' 0 23)
      | 0x07 => .reserved07
      | n =>
        if n < 0x10 then .reserved08 (op.extractLsb' 0 3)
        else if n < 0x20 then .reserved10 (op.extractLsb' 0 4)
        else if n < 0x40 then .reserved20 (op.extractLsb' 0 5)
        else if n < 0x80 then .reserved40 (op.extractLsb' 0 6)
        else .reserved80 (op.extractLsb' 0 7) := by
  unfold decodeCommandIn
  rw [extract_append_hi, extract_append_low op imm (by omega : 0 + 24 ≤ 24), extract_all,
    extract_append_low op imm (by omega : 0 + 8 ≤ 24), extract_append_low op imm (by omega : 16 + 8 ≤ 24),
    extract_append_low op imm (by omega : 8 + 8 ≤ 24), extract_append_low op imm (by omega : 0 + 23 ≤ 24),
    extract_append_high op imm (by omega : 24 ≤ 24), extract_append_high op imm (by omega : 24 ≤ 24),
    extract_append_high op imm (by omega : 24 ≤ 24), extract_append_high op imm (by omega : 24 ≤ 24),
    extract_append_high op imm (by omega : 24 ≤ 24), BitVec.getLsbD_append]
  rfl

/-- A PSET word decodes by its index (R86). -/
theorem decodeIn_psetWord (c : Config) (idx : BitVec 8) (w : Word) :
    decodeIn c (psetWord idx w) = .ok (decodePset idx w) := by
  simp only [psetWord, commandWord, decodeIn, decodeCommandIn_append]
  rw [extract_append_low (0#16) idx (by omega : 0 + 8 ≤ 8), extract_all]
  rfl

/-- A MIDI word decodes by its status nibble (R83, R84). -/
theorem decodeIn_midiWord (c : Config) (status : BitVec 4) (d1 d2 : BitVec 7) :
    decodeIn c (midiWord status d1 d2) =
      .ok (match status.toNat with
        | 0x8 => .midiNoteOff d1
        | 0x9 => .midiNoteOn d1 d2
        | 0xA => .midiIgnoredA
        | 0xB => decodeCcIn c d1 d2
        | 0xC => .midiIgnoredC
        | 0xD => .midiPressure d1
        | 0xE => .midiBend d1 d2
        | 0xF => .midiIgnoredF
        | _ => .midiIgnored07 (status.extractLsb' 0 3)) := by
  have hb0 : ((status ++ 0#4) ++ ((0#1 ++ d1) ++ (0#1 ++ d2)) : BitVec 24).extractLsb' 16 8 = status ++ 0#4 := by
    rw [extract_append_high (status ++ 0#4) _ (by omega : 8 + 8 ≤ 16)]
    exact extract_all _
  have hb1 : ((status ++ 0#4) ++ ((0#1 ++ d1) ++ (0#1 ++ d2)) : BitVec 24).extractLsb' 8 8 = 0#1 ++ d1 := by
    rw [extract_append_low (status ++ 0#4) ((0#1 ++ d1) ++ (0#1 ++ d2)) (by omega : 8 + 8 ≤ 16),
      extract_append_high (0#1 ++ d1) _ (by omega : 1 + 7 ≤ 8)]
    exact extract_all _
  have hb2 : ((status ++ 0#4) ++ ((0#1 ++ d1) ++ (0#1 ++ d2)) : BitVec 24).extractLsb' 0 8 = 0#1 ++ d2 := by
    rw [extract_append_low (status ++ 0#4) ((0#1 ++ d1) ++ (0#1 ++ d2)) (by omega : 0 + 8 ≤ 16),
      extract_append_low (0#1 ++ d1) (0#1 ++ d2) (by omega : 0 + 8 ≤ 8)]
    exact extract_all _
  have hm : decodeMidiIn c (status ++ 0#4) (0#1 ++ d1) (0#1 ++ d2) =
      match status.toNat with
        | 0x8 => .midiNoteOff d1
        | 0x9 => .midiNoteOn d1 d2
        | 0xA => .midiIgnoredA
        | 0xB => decodeCcIn c d1 d2
        | 0xC => .midiIgnoredC
        | 0xD => .midiPressure d1
        | 0xE => .midiBend d1 d2
        | 0xF => .midiIgnoredF
        | _ => .midiIgnored07 (status.extractLsb' 0 3) := by
    unfold decodeMidiIn
    simp only []
    rw [extract_append_hi, extract_append_low (0#1) d1 (by omega : 0 + 7 ≤ 7),
      extract_append_low (0#1) d2 (by omega : 0 + 7 ≤ 7), extract_all, extract_all,
      extract_append_high status (0#4) (by omega : 4 ≤ 4)] <;> rfl
  rw [← hm]
  simp only [midiWord, commandWord, decodeIn, decodeCommandIn_append]
  rw [hb0, hb1, hb2]
  rfl

section SelectLine

variable (vel note : BitVec 8) (otherOsc : BitVec 1) (otherVoice : BitVec 3) (set : BitVec 1) (voice : BitVec 3)
  (x y : Word)

/-- The voice of a select line. -/
@[simp] theorem selLine_voice :
    (SelectOperands.mk (selLine vel note otherOsc otherVoice set voice) x y).voice = voiceOf voice := by
  simp only [SelectOperands.voice, selLine]
  iterate 6 rw [extract_append_low _ _ (by omega)]
  rw [extract_all]

/-- The other oscillator's voice. -/
@[simp] theorem selLine_otherVoice :
    (SelectOperands.mk (selLine vel note otherOsc otherVoice set voice) x y).otherVoice = voiceOf otherVoice := by
  simp only [SelectOperands.otherVoice, selLine]
  iterate 4 rw [extract_append_low _ _ (by omega)]
  rw [extract_append_high _ _ (by omega)]
  exact congrArg voiceOf (extract_all _)

/-- The bit that selects a register set. -/
theorem selLine_bit3 : (selLine vel note otherOsc otherVoice set voice).getLsbD 3 = set.getLsbD 0 := by
  simp only [selLine]
  iterate 5 rw [bit_append_low _ _ (by omega)]
  rw [bit_append_high _ _ (by omega)]

/-- The bit that selects the other oscillator. -/
theorem selLine_bit7 : (selLine vel note otherOsc otherVoice set voice).getLsbD 7 = otherOsc.getLsbD 0 := by
  simp only [selLine]
  iterate 3 rw [bit_append_low _ _ (by omega)]
  rw [bit_append_high _ _ (by omega)]

/-- The signed velocity. -/
@[simp] theorem selLine_signedVel :
    (SelectOperands.mk (selLine vel note otherOsc otherVoice set voice) x y).signedVel = vel := by
  simp only [SelectOperands.signedVel, selLine]
  rw [extract_append_low _ _ (by omega), extract_append_high _ _ (by omega)]
  exact extract_all _

/-- The note. -/
@[simp] theorem selLine_note (n : BitVec 7) :
    (SelectOperands.mk (selLine vel (0#1 ++ n) otherOsc otherVoice set voice) x y).note = n := by
  simp only [SelectOperands.note, selLine]
  iterate 2 rw [extract_append_low _ _ (by omega)]
  apply BitVec.eq_of_getLsbD_eq
  intro i hi
  rw [BitVec.getLsbD_extractLsb', bit_append_high _ _ (by omega), bit_append_low _ _ (by omega),
    Nat.add_sub_cancel_left]
  simp [hi]

/-- The velocity. -/
@[simp] theorem selLine_vel (n : BitVec 7) :
    (SelectOperands.mk (selLine (0#1 ++ n) note otherOsc otherVoice set voice) x y).vel = n := by
  simp only [SelectOperands.vel, selLine]
  rw [extract_append_low _ _ (by omega)]
  apply BitVec.eq_of_getLsbD_eq
  intro i hi
  rw [BitVec.getLsbD_extractLsb', bit_append_high _ _ (by omega), bit_append_low _ _ (by omega),
    Nat.add_sub_cancel_left]
  simp [hi]

/-- The envelope. -/
@[simp] theorem selLine_env (e : EnvSel) :
    (SelectOperands.mk (selLine vel note otherOsc otherVoice (envBit e) voice) x y).env = e := by
  simp only [SelectOperands.env, selLine_bit3]
  cases e <;> rfl

/-- The oscillator. -/
@[simp] theorem selLine_osc (o : OscSel) :
    (SelectOperands.mk (selLine vel note otherOsc otherVoice (oscBit o) voice) x y).osc = o := by
  simp only [SelectOperands.osc, selLine_bit3]
  cases o <;> rfl

/-- The other oscillator. -/
@[simp] theorem selLine_otherOsc (o : OscSel) :
    (SelectOperands.mk (selLine vel note (oscBit o) otherVoice set voice) x y).otherOsc = o := by
  simp only [SelectOperands.otherOsc, selLine_bit7]
  cases o <;> rfl

end SelectLine

end Sys2Proof
end

