-- ==== Sys2Proof/Laws/Exec.lean ====
section
/-! SUPPORT. The meaning each instruction runs, one equation for each arm of the dispatch, so that a proof rewrites with
it and never unfolds the dispatch. -/

namespace Sys2Proof.Machine

@[simp] theorem exec_nop (s : State) : exec (.nop) s = execNop s := rfl
@[simp] theorem exec_reset (s : State) : exec (.reset) s = execReset s := rfl
@[simp] theorem exec_alloc (blockSize : BitVec 24) (sampleRate : F32) (s : State) :
    exec (.alloc blockSize sampleRate) s = execAlloc blockSize sampleRate s := rfl
@[simp] theorem exec_dealloc (s : State) : exec (.dealloc) s = execDealloc s := rfl
@[simp] theorem exec_pset (idx : BitVec 8) (wdata : Word) (s : State) :
    exec (.pset idx wdata) s = execPset idx wdata s := rfl
@[simp] theorem exec_midi (b0 b1 b2 : BitVec 8) (s : State) : exec (.midi b0 b1 b2) s = execMidi b0 b1 b2 s := rfl
@[simp] theorem exec_render (stereo : Bool) (n : BitVec 23) (s : State) :
    exec (.render stereo n) s = execRender stereo n s := rfl
@[simp] theorem exec_reserved07 (s : State) : exec (.reserved07) s = execReserved07 s := rfl
@[simp] theorem exec_reserved08 (low : BitVec 3) (s : State) : exec (.reserved08 low) s = execReserved08 low s := rfl
@[simp] theorem exec_reserved10 (low : BitVec 4) (s : State) : exec (.reserved10 low) s = execReserved10 low s := rfl
@[simp] theorem exec_reserved20 (low : BitVec 5) (s : State) : exec (.reserved20 low) s = execReserved20 low s := rfl
@[simp] theorem exec_reserved40 (low : BitVec 6) (s : State) : exec (.reserved40 low) s = execReserved40 low s := rfl
@[simp] theorem exec_reserved80 (low : BitVec 7) (s : State) : exec (.reserved80 low) s = execReserved80 low s := rfl
@[simp] theorem exec_psetNoiseMix (x : F32) (s : State) : exec (.psetNoiseMix x) s = execPsetNoiseMix x s := rfl
@[simp] theorem exec_psetEnvAttack (x : F32) (s : State) : exec (.psetEnvAttack x) s = execPsetEnvAttack x s := rfl
@[simp] theorem exec_psetEnvDecay (x : F32) (s : State) : exec (.psetEnvDecay x) s = execPsetEnvDecay x s := rfl
@[simp] theorem exec_psetEnvSustain (x : F32) (s : State) : exec (.psetEnvSustain x) s = execPsetEnvSustain x s := rfl
@[simp] theorem exec_psetEnvRelease (x : F32) (s : State) : exec (.psetEnvRelease x) s = execPsetEnvRelease x s := rfl
@[simp] theorem exec_psetOscMix (x : F32) (s : State) : exec (.psetOscMix x) s = execPsetOscMix x s := rfl
@[simp] theorem exec_psetDetune (x : F32) (s : State) : exec (.psetDetune x) s = execPsetDetune x s := rfl
@[simp] theorem exec_psetTune (x : F32) (s : State) : exec (.psetTune x) s = execPsetTune x s := rfl
@[simp] theorem exec_psetNumVoices (x : BitVec 8) (s : State) :
    exec (.psetNumVoices x) s = execPsetNumVoices x s := rfl
@[simp] theorem exec_psetVolumeTrim (x : F32) (s : State) : exec (.psetVolumeTrim x) s = execPsetVolumeTrim x s := rfl
@[simp] theorem exec_psetOutputLevel (x : F32) (s : State) :
    exec (.psetOutputLevel x) s = execPsetOutputLevel x s := rfl
@[simp] theorem exec_psetVelocitySensitivity (x : F32) (s : State) :
    exec (.psetVelocitySensitivity x) s = execPsetVelocitySensitivity x s := rfl
@[simp] theorem exec_psetIgnoreVelocity (x : Bool) (s : State) :
    exec (.psetIgnoreVelocity x) s = execPsetIgnoreVelocity x s := rfl
@[simp] theorem exec_psetLfoInc (x : F32) (s : State) : exec (.psetLfoInc x) s = execPsetLfoInc x s := rfl
@[simp] theorem exec_psetVibrato (x : F32) (s : State) : exec (.psetVibrato x) s = execPsetVibrato x s := rfl
@[simp] theorem exec_psetPwmDepth (x : F32) (s : State) : exec (.psetPwmDepth x) s = execPsetPwmDepth x s := rfl
@[simp] theorem exec_psetGlideMode (x : BitVec 8) (s : State) :
    exec (.psetGlideMode x) s = execPsetGlideMode x s := rfl
@[simp] theorem exec_psetGlideRate (x : F32) (s : State) : exec (.psetGlideRate x) s = execPsetGlideRate x s := rfl
@[simp] theorem exec_psetGlideBend (x : F32) (s : State) : exec (.psetGlideBend x) s = execPsetGlideBend x s := rfl
@[simp] theorem exec_psetFilterKeyTracking (x : F32) (s : State) :
    exec (.psetFilterKeyTracking x) s = execPsetFilterKeyTracking x s := rfl
@[simp] theorem exec_psetFilterQ (x : F32) (s : State) : exec (.psetFilterQ x) s = execPsetFilterQ x s := rfl
@[simp] theorem exec_psetFilterLFODepth (x : F32) (s : State) :
    exec (.psetFilterLFODepth x) s = execPsetFilterLFODepth x s := rfl
@[simp] theorem exec_psetFilterAttack (x : F32) (s : State) :
    exec (.psetFilterAttack x) s = execPsetFilterAttack x s := rfl
@[simp] theorem exec_psetFilterDecay (x : F32) (s : State) :
    exec (.psetFilterDecay x) s = execPsetFilterDecay x s := rfl
@[simp] theorem exec_psetFilterSustain (x : F32) (s : State) :
    exec (.psetFilterSustain x) s = execPsetFilterSustain x s := rfl
@[simp] theorem exec_psetFilterRelease (x : F32) (s : State) :
    exec (.psetFilterRelease x) s = execPsetFilterRelease x s := rfl
@[simp] theorem exec_psetFilterEnvDepth (x : F32) (s : State) :
    exec (.psetFilterEnvDepth x) s = execPsetFilterEnvDepth x s := rfl
@[simp] theorem exec_midiNoteOff (note : BitVec 7) (s : State) :
    exec (.midiNoteOff note) s = execMidiNoteOff note s := rfl
@[simp] theorem exec_midiNoteOn (note vel : BitVec 7) (s : State) :
    exec (.midiNoteOn note vel) s = execMidiNoteOn note vel s := rfl
@[simp] theorem exec_midiCc (ctl val : BitVec 7) (s : State) : exec (.midiCc ctl val) s = execMidiCc ctl val s := rfl
@[simp] theorem exec_midiPressure (val : BitVec 7) (s : State) :
    exec (.midiPressure val) s = execMidiPressure val s := rfl
@[simp] theorem exec_midiBend (d1 d2 : BitVec 7) (s : State) : exec (.midiBend d1 d2) s = execMidiBend d1 d2 s := rfl
@[simp] theorem exec_midiIgnored07 (status : BitVec 3) (s : State) :
    exec (.midiIgnored07 status) s = execMidiIgnored07 status s := rfl
@[simp] theorem exec_midiIgnoredA (s : State) : exec (.midiIgnoredA) s = execMidiIgnoredA s := rfl
@[simp] theorem exec_midiIgnoredC (s : State) : exec (.midiIgnoredC) s = execMidiIgnoredC s := rfl
@[simp] theorem exec_midiIgnoredF (s : State) : exec (.midiIgnoredF) s = execMidiIgnoredF s := rfl
@[simp] theorem exec_ccModWheel (val : BitVec 7) (s : State) : exec (.ccModWheel val) s = execCcModWheel val s := rfl
@[simp] theorem exec_ccSustain (val : BitVec 7) (s : State) : exec (.ccSustain val) s = execCcSustain val s := rfl
@[simp] theorem exec_ccFilterPos (val : BitVec 7) (s : State) :
    exec (.ccFilterPos val) s = execCcFilterPos val s := rfl
@[simp] theorem exec_ccFilterNeg (val : BitVec 7) (s : State) :
    exec (.ccFilterNeg val) s = execCcFilterNeg val s := rfl
@[simp] theorem exec_ccChannelMode (low : BitVec 3) (s : State) :
    exec (.ccChannelMode low) s = execCcChannelMode low s := rfl
@[simp] theorem exec_ccOther (ctl val : BitVec 7) (s : State) :
    exec (.ccOther ctl val) s = execCcOther ctl val s := rfl
@[simp] theorem exec_ngReset (s : State) : exec (.ngReset) s = execNgReset s := rfl
@[simp] theorem exec_ngNext (s : State) : exec (.ngNext) s = execNgNext s := rfl
@[simp] theorem exec_envReset (v : VoiceIx) (e : EnvSel) (s : State) :
    exec (.envReset v e) s = execEnvReset v e s := rfl
@[simp] theorem exec_envAttack (v : VoiceIx) (e : EnvSel) (s : State) :
    exec (.envAttack v e) s = execEnvAttack v e s := rfl
@[simp] theorem exec_envNext (v : VoiceIx) (e : EnvSel) (s : State) : exec (.envNext v e) s = execEnvNext v e s := rfl
@[simp] theorem exec_envRelease (v : VoiceIx) (e : EnvSel) (s : State) :
    exec (.envRelease v e) s = execEnvRelease v e s := rfl
@[simp] theorem exec_envIsActive (v : VoiceIx) (e : EnvSel) (s : State) :
    exec (.envIsActive v e) s = execEnvIsActive v e s := rfl
@[simp] theorem exec_envIsInAttack (v : VoiceIx) (e : EnvSel) (s : State) :
    exec (.envIsInAttack v e) s = execEnvIsInAttack v e s := rfl
@[simp] theorem exec_oscReset (v : VoiceIx) (o : OscSel) (s : State) :
    exec (.oscReset v o) s = execOscReset v o s := rfl
@[simp] theorem exec_oscNext (v : VoiceIx) (o : OscSel) (s : State) : exec (.oscNext v o) s = execOscNext v o s := rfl
@[simp] theorem exec_oscSquare (v : VoiceIx) (o : OscSel) (otherV : VoiceIx) (otherO : OscSel) (newPeriod : F32) (s : State) :
    exec (.oscSquare v o otherV otherO newPeriod) s = execOscSquare v o otherV otherO newPeriod s := rfl
@[simp] theorem exec_fltReset (v : VoiceIx) (s : State) : exec (.fltReset v) s = execFltReset v s := rfl
@[simp] theorem exec_fltUpdate (v : VoiceIx) (cutoffHz q : F32) (s : State) :
    exec (.fltUpdate v cutoffHz q) s = execFltUpdate v cutoffHz q s := rfl
@[simp] theorem exec_fltRender (v : VoiceIx) (x : F32) (s : State) :
    exec (.fltRender v x) s = execFltRender v x s := rfl
@[simp] theorem exec_voiceReset (v : VoiceIx) (s : State) : exec (.voiceReset v) s = execVoiceReset v s := rfl
@[simp] theorem exec_voiceRender (v : VoiceIx) (input : F32) (s : State) :
    exec (.voiceRender v input) s = execVoiceRender v input s := rfl
@[simp] theorem exec_voiceUpdateLfo (v : VoiceIx) (s : State) :
    exec (.voiceUpdateLfo v) s = execVoiceUpdateLfo v s := rfl
@[simp] theorem exec_voiceUpdatePan (v : VoiceIx) (s : State) :
    exec (.voiceUpdatePan v) s = execVoiceUpdatePan v s := rfl
@[simp] theorem exec_voiceRelease (v : VoiceIx) (s : State) : exec (.voiceRelease v) s = execVoiceRelease v s := rfl
@[simp] theorem exec_synNoteOn (note vel : BitVec 7) (s : State) :
    exec (.synNoteOn note vel) s = execSynNoteOn note vel s := rfl
@[simp] theorem exec_synNoteOff (note : BitVec 7) (s : State) :
    exec (.synNoteOff note) s = execSynNoteOff note s := rfl
@[simp] theorem exec_synFindFree (s : State) : exec (.synFindFree) s = execSynFindFree s := rfl
@[simp] theorem exec_synCalcPeriod (v : VoiceIx) (note : BitVec 7) (s : State) :
    exec (.synCalcPeriod v note) s = execSynCalcPeriod v note s := rfl
@[simp] theorem exec_synStartVoice (v : VoiceIx) (note vel : BitVec 7) (s : State) :
    exec (.synStartVoice v note vel) s = execSynStartVoice v note vel s := rfl
@[simp] theorem exec_synRestartMono (note : BitVec 7) (vel : BitVec 8) (s : State) :
    exec (.synRestartMono note vel) s = execSynRestartMono note vel s := rfl
@[simp] theorem exec_synShiftQ (s : State) : exec (.synShiftQ) s = execSynShiftQ s := rfl
@[simp] theorem exec_synNextQ (s : State) : exec (.synNextQ) s = execSynNextQ s := rfl
@[simp] theorem exec_synLegato (s : State) : exec (.synLegato) s = execSynLegato s := rfl
@[simp] theorem exec_synLfoStep (s : State) : exec (.synLfoStep) s = execSynLfoStep s := rfl
@[simp] theorem exec_synUpdatePeriod (v : VoiceIx) (s : State) :
    exec (.synUpdatePeriod v) s = execSynUpdatePeriod v s := rfl
@[simp] theorem exec_smSet (x : F32) (s : State) : exec (.smSet x) s = execSmSet x s := rfl
@[simp] theorem exec_smNext (s : State) : exec (.smNext) s = execSmNext s := rfl
@[simp] theorem exec_synSafe (x : F32) (s : State) : exec (.synSafe x) s = execSynSafe x s := rfl

/-- A step with a decodable word at the head of the port is that instruction, on the state without the word. -/
theorem step_of_decode {s : State} {w : PortWord} {rest : List PortWord} {i : Instr} (hp : s.port = w :: rest)
    (hd : decode w = .ok i) : step s = exec i { s with port := rest } := by
  simp only [step, hp, hd]

end Sys2Proof.Machine
end

