-- ==== Sys2Proof/Laws/Float.lean ====
section
/-! SUPPORT. The laws of the binary32 arithmetic (spec 00_scope.md R10 to R12): what a built value reads as, the order
of the magnitudes, and what rounding does. -/

namespace Sys2Proof

/-! ## Sign and magnitude -/

theorem F32.infMag_eq : F32.infMag = 2139095040 := rfl

theorem F32.mag_lt (x : F32) : x.mag < 2 ^ 31 := Nat.mod_lt _ (by decide)

@[simp] theorem F32.mag_ofSignMag (s : Bool) {m : Nat} (h : m < 2 ^ 31) : (F32.ofSignMag s m).mag = m := by
  cases s <;> simp [F32.ofSignMag, F32.mag, BitVec.toNat_ofNat] <;> omega

@[simp] theorem F32.sign_ofSignMag (s : Bool) {m : Nat} (h : m < 2 ^ 31) : (F32.ofSignMag s m).sign = s := by
  cases s <;> simp [F32.ofSignMag, F32.sign, BitVec.msb_eq_decide, BitVec.toNat_ofNat] <;> omega

/-- A value is its sign and its magnitude. -/
theorem F32.ofSignMag_self (x : F32) : F32.ofSignMag x.sign x.mag = x := by
  obtain ⟨b⟩ := x
  have hb := b.isLt
  simp only [F32.ofSignMag, F32.sign, F32.mag, F32.mk.injEq]
  apply BitVec.eq_of_toNat_eq
  simp only [BitVec.toNat_ofNat, BitVec.msb_eq_decide]
  by_cases h : 2 ^ (32 - 1) ≤ b.toNat
  · rw [decide_eq_true h, if_pos rfl]; omega
  · rw [decide_eq_false h, if_neg (by decide)]; omega

theorem F32.ext_sign_mag {x y : F32} (hs : x.sign = y.sign) (hm : x.mag = y.mag) : x = y := by
  rw [← F32.ofSignMag_self x, ← F32.ofSignMag_self y, hs, hm]

@[simp] theorem F32.mag_neg (x : F32) : x.neg.mag = x.mag := by
  obtain ⟨b⟩ := x
  have hb := b.isLt
  have h : (b ^^^ 0x80000000#32).toNat % 2 ^ 31 = b.toNat % 2 ^ 31 := by
    rw [BitVec.toNat_xor, Nat.xor_mod_two_pow]
    simp
  simpa [F32.neg, F32.mag] using h

@[simp] theorem F32.sign_neg (x : F32) : x.neg.sign = !x.sign := by
  obtain ⟨b⟩ := x
  have h : (0x80000000#32).msb = true := rfl
  simp [F32.neg, F32.sign, h]

@[simp] theorem F32.neg_neg (x : F32) : x.neg.neg = x := by
  obtain ⟨b⟩ := x
  simp [F32.neg]

theorem F32.isNaN_quietNaN (d : BitVec 23) : (F32.quietNaN d).isNaN = true := by
  have h1 := (d.extractLsb' 0 22).isLt
  have e1 : (0x1FF#9 ++ d.extractLsb' 0 22).toNat = 0x1FF * 2 ^ 22 + (d.extractLsb' 0 22).toNat := by
    rw [BitVec.toNat_append, ← Nat.shiftLeft_add_eq_or_of_lt h1, Nat.shiftLeft_eq]
    rfl
  have e2 : (F32.quietNaN d).bits.toNat =
      (d.extractLsb' 22 1).toNat * 2 ^ 31 + (0x1FF * 2 ^ 22 + (d.extractLsb' 0 22).toNat) := by
    rw [F32.quietNaN, BitVec.toNat_append, e1, ← Nat.shiftLeft_add_eq_or_of_lt (by omega), Nat.shiftLeft_eq]
  have e3 : (F32.quietNaN d).mag = 0x1FF * 2 ^ 22 + (d.extractLsb' 0 22).toNat := by
    rw [F32.mag, e2]; omega
  rw [F32.isNaN, e3, F32.infMag_eq, decide_eq_true_eq]
  omega

@[simp] theorem F32.isNaN_newNaN (op : NanOp) (a b : F32) : (F32.newNaN op a b).isNaN = true :=
  F32.isNaN_quietNaN _

/-! ## The order of the magnitudes -/

/-- The magnitude with exponent field `k + 1` (or `0` when `k = 0` and the significand is short) and significand `q`. -/
theorem F32.unitsOfMag_split {k q : Nat} (hk : k = 0 ∨ 2 ^ 23 ≤ q) (hq : q ≤ 2 ^ 24) :
    F32.unitsOfMag (k * 2 ^ 23 + q) = q * 2 ^ k := by
  unfold F32.unitsOfMag
  by_cases h1 : q < 2 ^ 23
  · have : k = 0 := by omega
    subst this
    have : (0 * 2 ^ 23 + q) / 2 ^ 23 = 0 := by omega
    rw [if_pos this]; simp
  · by_cases h2 : q = 2 ^ 24
    · subst h2
      have e1 : (k * 2 ^ 23 + 2 ^ 24) / 2 ^ 23 = k + 2 := by omega
      have e2 : (k * 2 ^ 23 + 2 ^ 24) % 2 ^ 23 = 0 := by omega
      rw [e1, e2]
      simp [pow_succ]
      ring
    · have e1 : (k * 2 ^ 23 + q) / 2 ^ 23 = k + 1 := by omega
      have e2 : 2 ^ 23 + (k * 2 ^ 23 + q) % 2 ^ 23 = q := by omega
      rw [e1, e2]
      simp

theorem F32.unitsOfMag_lt_succ (m : Nat) : F32.unitsOfMag m < F32.unitsOfMag (m + 1) := by
  by_cases h : m < 2 ^ 23
  · have e1 := F32.unitsOfMag_split (k := 0) (q := m) (.inl rfl) (by omega)
    have e2 := F32.unitsOfMag_split (k := 0) (q := m + 1) (.inl rfl) (by omega)
    simp at e1 e2
    rw [e1, e2]
    omega
  · obtain ⟨k, q, rfl, hq1, hq2⟩ : ∃ k q, m = k * 2 ^ 23 + q ∧ 2 ^ 23 ≤ q ∧ q < 2 ^ 24 :=
      ⟨m / 2 ^ 23 - 1, 2 ^ 23 + m % 2 ^ 23, by omega, by omega, by omega⟩
    rw [Nat.add_assoc, F32.unitsOfMag_split (.inr hq1) (by omega),
      F32.unitsOfMag_split (.inr (by omega)) (by omega)]
    exact Nat.mul_lt_mul_of_pos_right (by omega) (by positivity)

theorem F32.unitsOfMag_strictMono : StrictMono F32.unitsOfMag := strictMono_nat_of_lt_succ F32.unitsOfMag_lt_succ

@[simp] theorem F32.unitsOfMag_zero : F32.unitsOfMag 0 = 0 := rfl

theorem F32.unitsOfMag_le_iff {a b : Nat} : F32.unitsOfMag a ≤ F32.unitsOfMag b ↔ a ≤ b :=
  F32.unitsOfMag_strictMono.le_iff_le

theorem F32.unitsOfMag_lt_iff {a b : Nat} : F32.unitsOfMag a < F32.unitsOfMag b ↔ a < b :=
  F32.unitsOfMag_strictMono.lt_iff_lt

theorem F32.unitsOfMag_inj {a b : Nat} : F32.unitsOfMag a = F32.unitsOfMag b ↔ a = b :=
  F32.unitsOfMag_strictMono.injective.eq_iff

/-! ## Rounding -/

/-- The exponent rounding works at. -/
def F32.roundExp (num den : Nat) : Nat := Nat.log2 (num / den) - 23

/-- The largest magnitude not above `num / den`. -/
def F32.floorMag (num den : Nat) : Nat :=
  F32.roundExp num den * 2 ^ 23 + num / (den * 2 ^ F32.roundExp num den)

/-- Whether rounding goes to the magnitude above. -/
def F32.roundsUp (num den : Nat) : Bool :=
  let d := den * 2 ^ F32.roundExp num den
  d < 2 * (num % d) || (2 * (num % d) == d && num / d % 2 == 1)

theorem F32.roundMag_eq {num den : Nat} (hd : 0 < den) :
    F32.roundMag num den =
      min (if F32.roundsUp num den then F32.floorMag num den + 1 else F32.floorMag num den) F32.infMag := by
  obtain ⟨e, rfl⟩ : ∃ e, den = e + 1 := ⟨den - 1, by omega⟩
  cases num with
  | zero =>
    have hk : F32.roundExp 0 (e + 1) = 0 := by simp [F32.roundExp]
    have hf : F32.floorMag 0 (e + 1) = 0 := by simp [F32.floorMag, hk]
    have hu : F32.roundsUp 0 (e + 1) = false := by simp [F32.roundsUp, hk]
    rw [hu, hf]; rfl
  | succ n =>
    unfold F32.roundMag F32.roundsUp F32.floorMag F32.roundExp
    simp only
    split <;> simp [*, Nat.add_assoc]

theorem F32.roundMag_le_infMag (num den : Nat) : F32.roundMag num den ≤ F32.infMag := by
  rcases num with _ | n
  · exact Nat.zero_le _
  · rcases den with _ | e
    · exact le_refl _
    · exact Nat.min_le_right _ _

theorem F32.roundMag_lt (num den : Nat) : F32.roundMag num den < 2 ^ 31 :=
  lt_of_le_of_lt (F32.roundMag_le_infMag num den) (by decide)

/-- The significand rounding finds fits its field. -/
theorem F32.roundExp_spec {num den : Nat} :
    (F32.roundExp num den = 0 ∨ 2 ^ 23 ≤ num / (den * 2 ^ F32.roundExp num den)) ∧
      num / (den * 2 ^ F32.roundExp num den) < 2 ^ 24 := by
  have hdiv : num / (den * 2 ^ F32.roundExp num den) = num / den / 2 ^ F32.roundExp num den := by
    rw [Nat.div_div_eq_div_mul]
  rw [hdiv]
  unfold F32.roundExp
  generalize num / den = n
  by_cases h0 : n = 0
  · subst h0; simp
  · have h1 := Nat.log2_self_le h0
    have h2 := Nat.lt_log2_self (n := n)
    by_cases h : Nat.log2 n ≤ 23
    · have e : Nat.log2 n - 23 = 0 := by omega
      rw [e]
      refine ⟨.inl rfl, ?_⟩
      simp
      calc n < 2 ^ (Nat.log2 n + 1) := h2
        _ ≤ 2 ^ 24 := Nat.pow_le_pow_right (by decide) (by omega)
    · obtain ⟨k, hk⟩ : ∃ k, Nat.log2 n = k + 23 := ⟨Nat.log2 n - 23, by omega⟩
      rw [hk] at h1 h2 ⊢
      have e : k + 23 - 23 = k := by omega
      rw [e]
      refine ⟨.inr ?_, ?_⟩
      · rw [Nat.le_div_iff_mul_le (by positivity)]
        calc 2 ^ 23 * 2 ^ k = 2 ^ (k + 23) := by ring
          _ ≤ n := h1
      · rw [Nat.div_lt_iff_lt_mul (by positivity)]
        calc n < 2 ^ (k + 23 + 1) := h2
          _ = 2 ^ 24 * 2 ^ k := by ring

theorem F32.units_floorMag {num den : Nat} :
    F32.unitsOfMag (F32.floorMag num den) = num / (den * 2 ^ F32.roundExp num den) * 2 ^ F32.roundExp num den :=
  F32.unitsOfMag_split (F32.roundExp_spec).1 (le_of_lt (F32.roundExp_spec).2)

theorem F32.units_floorMag_succ {num den : Nat} :
    F32.unitsOfMag (F32.floorMag num den + 1) =
      (num / (den * 2 ^ F32.roundExp num den) + 1) * 2 ^ F32.roundExp num den := by
  have h := F32.roundExp_spec (num := num) (den := den)
  unfold F32.floorMag
  rw [Nat.add_assoc]
  exact F32.unitsOfMag_split (h.1.imp id (fun h => by omega)) (by omega)

/-- `floorMag` is the magnitude at or below the quotient. -/
theorem F32.floorMag_le {num den : Nat} : F32.unitsOfMag (F32.floorMag num den) * den ≤ num := by
  rw [F32.units_floorMag]
  calc _ = den * 2 ^ F32.roundExp num den * (num / (den * 2 ^ F32.roundExp num den)) := by ring
    _ ≤ num := Nat.mul_div_le _ _

/-- The next magnitude is above the quotient. -/
theorem F32.lt_floorMag_succ {num den : Nat} (hd : 0 < den) :
    num < F32.unitsOfMag (F32.floorMag num den + 1) * den := by
  rw [F32.units_floorMag_succ]
  have := Nat.lt_mul_div_succ num (b := den * 2 ^ F32.roundExp num den) (by positivity)
  calc num < den * 2 ^ F32.roundExp num den * (num / (den * 2 ^ F32.roundExp num den) + 1) := this
    _ = _ := by ring

/-- `floorMag` is the only magnitude between which and its successor the quotient lies. -/
theorem F32.floorMag_unique {num den m : Nat} (hd : 0 < den) (h1 : F32.unitsOfMag m * den ≤ num)
    (h2 : num < F32.unitsOfMag (m + 1) * den) : F32.floorMag num den = m := by
  have a := F32.floorMag_le (num := num) (den := den)
  have b := F32.lt_floorMag_succ (num := num) hd
  have c : F32.unitsOfMag m < F32.unitsOfMag (F32.floorMag num den + 1) :=
    Nat.lt_of_mul_lt_mul_right (lt_of_le_of_lt h1 b)
  have d : F32.unitsOfMag (F32.floorMag num den) < F32.unitsOfMag (m + 1) :=
    Nat.lt_of_mul_lt_mul_right (lt_of_le_of_lt a h2)
  rw [F32.unitsOfMag_lt_iff] at c d
  omega

/-- Rounding up means the quotient is at or above the midpoint, and rounding down at or below it. -/
theorem F32.roundsUp_iff {num den : Nat} :
    F32.roundsUp num den = true ↔
      (F32.unitsOfMag (F32.floorMag num den) + F32.unitsOfMag (F32.floorMag num den + 1)) * den < 2 * num ∨
      ((F32.unitsOfMag (F32.floorMag num den) + F32.unitsOfMag (F32.floorMag num den + 1)) * den = 2 * num ∧
        F32.floorMag num den % 2 = 1) := by
  have hpar : F32.floorMag num den % 2 = num / (den * 2 ^ F32.roundExp num den) % 2 := by
    unfold F32.floorMag; omega
  rw [F32.units_floorMag, F32.units_floorMag_succ, hpar]
  unfold F32.roundsUp
  simp only [Bool.or_eq_true, Bool.and_eq_true, decide_eq_true_eq, beq_iff_eq]
  generalize F32.roundExp num den = k
  have hdm := (Nat.div_add_mod num (den * 2 ^ k)).symm
  generalize num / (den * 2 ^ k) = q at hdm ⊢
  generalize num % (den * 2 ^ k) = r at hdm ⊢
  have e : (q * 2 ^ k + (q + 1) * 2 ^ k) * den = 2 * (den * 2 ^ k * q) + den * 2 ^ k := by ring
  rw [e]
  constructor
  · rintro (h | ⟨h1, h2⟩)
    · left; omega
    · right; exact ⟨by omega, h2⟩
  · rintro (h | ⟨h1, h2⟩)
    · left; omega
    · right; exact ⟨by omega, h2⟩

/-- A quotient that is a magnitude rounds to it. -/
theorem F32.roundMag_exact {m den : Nat} (hd : 0 < den) (hm : m ≤ F32.infMag) :
    F32.roundMag (F32.unitsOfMag m * den) den = m := by
  have hf : F32.floorMag (F32.unitsOfMag m * den) den = m :=
    F32.floorMag_unique hd (le_refl _) (Nat.mul_lt_mul_of_pos_right (F32.unitsOfMag_lt_succ m) hd)
  have hu : F32.roundsUp (F32.unitsOfMag m * den) den = false := by
    rw [Bool.eq_false_iff]
    intro h
    rw [F32.roundsUp_iff, hf] at h
    have : F32.unitsOfMag m * den < F32.unitsOfMag (m + 1) * den :=
      Nat.mul_lt_mul_of_pos_right (F32.unitsOfMag_lt_succ m) hd
    rw [Nat.add_mul] at h
    omega
  rw [F32.roundMag_eq hd, hu, hf]
  simpa using hm

theorem F32.roundMag_exact_one {m : Nat} (hm : m ≤ F32.infMag) : F32.roundMag (F32.unitsOfMag m) 1 = m := by
  simpa using F32.roundMag_exact (m := m) (den := 1) (by decide) hm

@[simp] theorem F32.roundMag_zero (den : Nat) : F32.roundMag 0 den = 0 := rfl

/-- Rounding keeps the order. -/
theorem F32.roundMag_mono {n1 d1 n2 d2 : Nat} (h1 : 0 < d1) (h2 : 0 < d2) (h : n1 * d2 ≤ n2 * d1) :
    F32.roundMag n1 d1 ≤ F32.roundMag n2 d2 := by
  have a1 := F32.floorMag_le (num := n1) (den := d1)
  have b2 := F32.lt_floorMag_succ (num := n2) h2
  have hle : F32.floorMag n1 d1 ≤ F32.floorMag n2 d2 := by
    have : F32.unitsOfMag (F32.floorMag n1 d1) * (d1 * d2) < F32.unitsOfMag (F32.floorMag n2 d2 + 1) * (d1 * d2) := by
      nlinarith
    have := F32.unitsOfMag_lt_iff.1 (Nat.lt_of_mul_lt_mul_right this)
    omega
  rw [F32.roundMag_eq h1, F32.roundMag_eq h2]
  apply min_le_min_right
  rcases Nat.lt_or_ge (F32.floorMag n1 d1) (F32.floorMag n2 d2) with hlt | hge
  · split <;> split <;> omega
  · have he : F32.floorMag n1 d1 = F32.floorMag n2 d2 := by omega
    by_cases hu : F32.roundsUp n1 d1 = true
    · have hu2 : F32.roundsUp n2 d2 = true := by
        rw [F32.roundsUp_iff, he] at hu
        rw [F32.roundsUp_iff]
        generalize F32.unitsOfMag (F32.floorMag n2 d2) + F32.unitsOfMag (F32.floorMag n2 d2 + 1) = t at *
        rcases hu with hu | ⟨hu, hp⟩
        · left
          have : t * d2 * d1 < 2 * n2 * d1 := by nlinarith
          exact Nat.lt_of_mul_lt_mul_right this
        · rcases Nat.lt_or_ge (t * d2) (2 * n2) with hl | hg
          · exact .inl hl
          · right
            refine ⟨?_, hp⟩
            have : 2 * n2 * d1 ≥ t * d2 * d1 := by nlinarith
            have := Nat.le_of_mul_le_mul_right this h1
            omega
      simp [hu, hu2, he]
    · rw [if_neg hu]
      split <;> omega

/-- Below infinity the rounded magnitude is one of the two around the quotient, the nearer one, the even one on a tie. -/
theorem F32.roundMag_cases {num den : Nat} (hd : 0 < den) (hfin : F32.roundMag num den < F32.infMag) :
    (F32.roundMag num den = F32.floorMag num den ∧
      (2 * num < (F32.unitsOfMag (F32.floorMag num den) + F32.unitsOfMag (F32.floorMag num den + 1)) * den ∨
        (2 * num = (F32.unitsOfMag (F32.floorMag num den) + F32.unitsOfMag (F32.floorMag num den + 1)) * den ∧
          F32.floorMag num den % 2 = 0))) ∨
    (F32.roundMag num den = F32.floorMag num den + 1 ∧
      ((F32.unitsOfMag (F32.floorMag num den) + F32.unitsOfMag (F32.floorMag num den + 1)) * den < 2 * num ∨
        ((F32.unitsOfMag (F32.floorMag num den) + F32.unitsOfMag (F32.floorMag num den + 1)) * den = 2 * num ∧
          F32.floorMag num den % 2 = 1))) := by
  have hu := F32.roundsUp_iff (num := num) (den := den)
  rw [F32.roundMag_eq hd] at hfin ⊢
  by_cases h : F32.roundsUp num den = true
  · rw [if_pos h] at hfin ⊢
    exact .inr ⟨by omega, hu.1 h⟩
  · rw [if_neg h] at hfin ⊢
    have h' := mt hu.2 h
    push Not at h'
    refine .inl ⟨by omega, ?_⟩
    rcases Nat.lt_or_ge (2 * num)
      ((F32.unitsOfMag (F32.floorMag num den) + F32.unitsOfMag (F32.floorMag num den + 1)) * den) with hl | hg
    · exact .inl hl
    · have he := le_antisymm h'.1 hg
      exact .inr ⟨he, by have := h'.2 he.symm; omega⟩

/-- Rounding is to nearest, ties to even (R11): no magnitude is nearer to the quotient, and one that is as near is
the rounded one or leaves it even. -/
theorem F32.roundMag_nearest {num den : Nat} (hd : 0 < den) (hfin : F32.roundMag num den < F32.infMag) (m : Nat) :
    |(F32.unitsOfMag (F32.roundMag num den) * den : Int) - num| ≤ |(F32.unitsOfMag m * den : Int) - num| ∧
      (|(F32.unitsOfMag (F32.roundMag num den) * den : Int) - num| = |(F32.unitsOfMag m * den : Int) - num| →
        m = F32.roundMag num den ∨ F32.roundMag num den % 2 = 0) := by
  have hlo := F32.floorMag_le (num := num) (den := den)
  have hhi := F32.lt_floorMag_succ (num := num) hd
  have key := F32.roundMag_cases hd hfin
  have hm : (m = F32.floorMag num den ∨ m = F32.floorMag num den + 1) ∨
      F32.unitsOfMag m * den < F32.unitsOfMag (F32.floorMag num den) * den ∨
      F32.unitsOfMag (F32.floorMag num den + 1) * den < F32.unitsOfMag m * den := by
    rcases lt_trichotomy m (F32.floorMag num den) with h | h | h
    · exact .inr (.inl (Nat.mul_lt_mul_of_pos_right (F32.unitsOfMag_lt_iff.2 h) hd))
    · exact .inl (.inl h)
    · rcases Nat.lt_or_ge (F32.floorMag num den + 1) m with h' | h'
      · exact .inr (.inr (Nat.mul_lt_mul_of_pos_right (F32.unitsOfMag_lt_iff.2 h') hd))
      · exact .inl (.inr (by omega))
  rw [Nat.add_mul] at key
  have c : ∀ x, (F32.unitsOfMag x : Int) * (den : Int) = ((F32.unitsOfMag x * den : Nat) : Int) :=
    fun x => (Int.natCast_mul _ _).symm
  simp only [c, abs_eq_max_neg]
  generalize F32.floorMag num den = f at *
  rcases key with ⟨hr, key⟩ | ⟨hr, key⟩ <;> rw [hr] <;> rcases hm with (hm | hm) | hm | hm
  all_goals try rw [hm]
  all_goals
    generalize F32.unitsOfMag f * den = u at *
    generalize F32.unitsOfMag (f + 1) * den = v at *
    omega

/-- Rounding overflows to infinity from the midpoint above the largest finite value on. -/
theorem F32.roundMag_eq_infMag_iff {num den : Nat} (hd : 0 < den) :
    F32.roundMag num den = F32.infMag ↔
      (F32.unitsOfMag (F32.infMag - 1) + F32.unitsOfMag F32.infMag) * den ≤ 2 * num := by
  have hlo := F32.floorMag_le (num := num) (den := den)
  have hhi := F32.lt_floorMag_succ (num := num) hd
  constructor
  · intro h
    rcases Nat.lt_or_ge (F32.floorMag num den + 1) F32.infMag with hl | hg
    · rw [F32.roundMag_eq hd] at h; split at h <;> omega
    · rcases Nat.lt_or_ge (F32.floorMag num den) F32.infMag with hl | hg'
      · have he : F32.floorMag num den = F32.infMag - 1 := by omega
        have hs : F32.infMag - 1 + 1 = F32.infMag := rfl
        have hu : F32.roundsUp num den = true := by
          by_contra hc
          rw [F32.roundMag_eq hd, if_neg hc] at h
          omega
        rw [F32.roundsUp_iff, he, hs] at hu
        omega
      · have h1 := Nat.mul_le_mul_right den (F32.unitsOfMag_le_iff.2 hg')
        have h2 := Nat.mul_le_mul_right den (F32.unitsOfMag_le_iff.2 (Nat.sub_le F32.infMag 1))
        rw [Nat.add_mul]
        omega
  · intro h
    by_contra hc
    have hfin : F32.roundMag num den < F32.infMag := lt_of_le_of_ne (F32.roundMag_le_infMag _ _) hc
    have hs : F32.infMag - 1 + 1 = F32.infMag := rfl
    have hfl : F32.floorMag num den ≤ F32.infMag - 1 := by
      rcases F32.roundMag_cases hd hfin with ⟨hr, -⟩ | ⟨hr, -⟩ <;> omega
    rcases Nat.lt_or_ge (F32.floorMag num den) (F32.infMag - 1) with hl | hg
    · have h1 : F32.unitsOfMag (F32.floorMag num den + 1) * den ≤ F32.unitsOfMag (F32.infMag - 1) * den :=
        Nat.mul_le_mul_right den (F32.unitsOfMag_le_iff.2 hl)
      have h2 := Nat.mul_le_mul_right den (F32.unitsOfMag_le_iff.2 (Nat.sub_le F32.infMag 1))
      rw [Nat.add_mul] at h
      omega
    · have he : F32.floorMag num den = F32.infMag - 1 := by omega
      have key := F32.roundMag_cases hd hfin
      rw [he, hs] at key
      have hpar : (F32.infMag - 1) % 2 = 1 := rfl
      rcases key with ⟨hr, key⟩ | ⟨hr, key⟩
      · rcases key with key | ⟨-, key⟩
        · omega
        · omega
      · omega

/-! ## Values -/

theorem F32.isFinite_iff {x : F32} : x.isFinite = true ↔ x.mag < F32.infMag := by simp [F32.isFinite]

theorem F32.not_isNaN_of_finite {x : F32} (h : x.isFinite = true) : x.isNaN = false := by
  rw [F32.isFinite_iff] at h
  simp [F32.isNaN]; omega

theorem F32.not_isInf_of_finite {x : F32} (h : x.isFinite = true) : x.isInf = false := by
  rw [F32.isFinite_iff] at h
  simp [F32.isInf]; omega

/-- The order of the values is the order of their places. -/
theorem F32.units_le_iff {x y : F32} : x.units ≤ y.units ↔ x.place ≤ y.place := by
  have h1 := F32.unitsOfMag_le_iff (a := x.mag) (b := y.mag)
  have h2 := F32.unitsOfMag_le_iff (a := y.mag) (b := x.mag)
  have h3 := F32.unitsOfMag_le_iff (a := x.mag) (b := 0)
  have h4 := F32.unitsOfMag_le_iff (a := y.mag) (b := 0)
  simp only [F32.unitsOfMag_zero] at h3 h4
  unfold F32.units F32.place F32.absUnits
  split <;> split <;> omega

theorem F32.units_neg (x : F32) : x.neg.units = -x.units := by
  unfold F32.units F32.absUnits
  rw [F32.sign_neg, F32.mag_neg]
  cases x.sign <;> simp

theorem F32.natAbs_units (x : F32) : x.units.natAbs = x.absUnits := by
  unfold F32.units; split <;> simp

/-- The place a signed quotient rounds to. -/
def F32.roundPlace (num : Int) (den : Nat) : Int :=
  if num < 0 then -(F32.roundMag num.natAbs den : Int) else F32.roundMag num.natAbs den

theorem F32.place_ofSignMag (s : Bool) {m : Nat} (h : m < 2 ^ 31) :
    (F32.ofSignMag s m).place = if s then -(m : Int) else m := by
  simp only [F32.place, F32.sign_ofSignMag s h, F32.mag_ofSignMag s h]

/-- Rounding does not pass a value (lower bound). -/
theorem F32.place_le_roundPlace {c : F32} {num : Int} {den : Nat} (hd : 0 < den) (hc : c.isFinite = true)
    (h : c.units * den ≤ num) : c.place ≤ F32.roundPlace num den := by
  rw [F32.isFinite_iff] at hc
  have hex := F32.roundMag_exact (m := c.mag) hd (le_of_lt hc)
  unfold F32.roundPlace
  unfold F32.units F32.absUnits at h
  unfold F32.place
  by_cases hs : c.sign = true <;> simp only [hs, if_true, if_false, Bool.false_eq_true] at h ⊢
  · split
    · have hle : num.natAbs ≤ F32.unitsOfMag c.mag * den := by
        have : (num.natAbs : Int) ≤ ((F32.unitsOfMag c.mag * den : Nat) : Int) := by push_cast; nlinarith [abs_of_neg (a := num) ‹_›, Int.natCast_natAbs num]
        exact_mod_cast this
      have := F32.roundMag_mono hd hd (Nat.mul_le_mul_right den hle)
      omega
    · omega
  · have h0 : 0 ≤ num := le_trans (by positivity) h
    rw [if_neg (by omega)]
    have hle : F32.unitsOfMag c.mag * den ≤ num.natAbs := by
      have : ((F32.unitsOfMag c.mag * den : Nat) : Int) ≤ (num.natAbs : Int) := by
        push_cast; rw [abs_of_nonneg h0]; exact h
      exact_mod_cast this
    have := F32.roundMag_mono hd hd (Nat.mul_le_mul_right den hle)
    omega

theorem F32.roundPlace_neg {num : Int} {den : Nat} :
    F32.roundPlace (-num) den = -F32.roundPlace num den := by
  unfold F32.roundPlace
  rcases lt_trichotomy num 0 with h | h | h
  · rw [if_neg (by omega), if_pos h]; simp
  · subst h; simp
  · rw [if_pos (by omega), if_neg (by omega)]; simp

/-- Rounding does not pass a value (upper bound). -/
theorem F32.roundPlace_le_place {c : F32} {num : Int} {den : Nat} (hd : 0 < den) (hc : c.isFinite = true)
    (h : num ≤ c.units * den) : F32.roundPlace num den ≤ c.place := by
  have hn : c.neg.isFinite = true := by rw [F32.isFinite_iff] at hc ⊢; simpa using hc
  have hp : c.neg.place = -c.place := by
    unfold F32.place; rw [F32.sign_neg, F32.mag_neg]; cases c.sign <;> simp
  have := F32.place_le_roundPlace hd hn (num := -num) (by rw [F32.units_neg]; linarith)
  rw [F32.roundPlace_neg, hp] at this
  omega

/-- The place of a finite sum. -/
theorem F32.place_add {a b : F32} (ha : a.isFinite = true) (hb : b.isFinite = true) :
    (a.add b).place = F32.roundPlace (a.units + b.units) 1 := by
  unfold F32.add F32.roundPlace
  rw [F32.not_isNaN_of_finite ha, F32.not_isNaN_of_finite hb, F32.not_isInf_of_finite ha, F32.not_isInf_of_finite hb]
  simp only [Bool.false_eq_true, Bool.or_self, if_false]
  generalize a.units + b.units = n
  by_cases h : n = 0
  · subst h
    rw [if_pos rfl, F32.place_ofSignMag _ (by decide)]
    simp
  · rw [if_neg h, F32.place_ofSignMag _ (F32.roundMag_lt _ _)]
    by_cases h0 : n < 0 <;> simp [h0]

theorem F32.not_isNaN_add {a b : F32} (ha : a.isFinite = true) (hb : b.isFinite = true) :
    (a.add b).isNaN = false := by
  unfold F32.add
  rw [F32.not_isNaN_of_finite ha, F32.not_isNaN_of_finite hb, F32.not_isInf_of_finite ha, F32.not_isInf_of_finite hb]
  simp only [Bool.false_eq_true, Bool.or_self, if_false]
  have h := F32.roundMag_le_infMag (a.units + b.units).natAbs 1
  split
  · simp [F32.isNaN, F32.mag_ofSignMag _ (show 0 < 2 ^ 31 by decide)]
  · simp only [F32.isNaN, F32.mag_ofSignMag _ (F32.roundMag_lt _ _), decide_eq_false_iff_not]
    omega

/-- The place of a finite product. -/
theorem F32.place_mul {a b : F32} (ha : a.isFinite = true) (hb : b.isFinite = true) :
    (a.mul b).place = F32.roundPlace (a.units * b.units) (2 ^ 149) := by
  unfold F32.mul F32.roundPlace
  rw [F32.not_isNaN_of_finite ha, F32.not_isNaN_of_finite hb, F32.not_isInf_of_finite ha, F32.not_isInf_of_finite hb]
  simp only [Bool.false_eq_true, Bool.or_self, if_false]
  rw [F32.place_ofSignMag _ (F32.roundMag_lt _ _), Int.natAbs_mul, F32.natAbs_units, F32.natAbs_units]
  have pa : (0 : Int) ≤ a.absUnits := Int.natCast_nonneg _
  have pb : (0 : Int) ≤ b.absUnits := Int.natCast_nonneg _
  by_cases h0 : a.absUnits = 0 ∨ b.absUnits = 0
  · have hz : a.absUnits * b.absUnits = 0 := by simpa using h0
    rw [hz, F32.roundMag_zero]
    simp
  · push Not at h0
    have pa' : (0 : Int) < a.absUnits := by omega
    have pb' : (0 : Int) < b.absUnits := by omega
    have hp := Int.mul_pos pa' pb'
    unfold F32.units
    cases a.sign <;> cases b.sign <;> simp [hp, not_lt.2 hp.le]

theorem F32.not_isNaN_mul {a b : F32} (ha : a.isFinite = true) (hb : b.isFinite = true) :
    (a.mul b).isNaN = false := by
  unfold F32.mul
  rw [F32.not_isNaN_of_finite ha, F32.not_isNaN_of_finite hb, F32.not_isInf_of_finite ha, F32.not_isInf_of_finite hb]
  simp only [Bool.false_eq_true, Bool.or_self, if_false]
  have h := F32.roundMag_le_infMag (a.absUnits * b.absUnits) (2 ^ 149)
  simp only [F32.isNaN, F32.mag_ofSignMag _ (F32.roundMag_lt _ _), decide_eq_false_iff_not]
  omega

/-- A value whose place is within the finite places is finite. -/
theorem F32.isFinite_of_place {x : F32} (h1 : -(F32.infMag : Int) < x.place) (h2 : x.place < F32.infMag) :
    x.isFinite = true := by
  rw [F32.isFinite_iff]
  unfold F32.place at h1 h2
  split at h1 <;> simp_all

theorem F32.place_bounds {x : F32} (h : x.isFinite = true) :
    -(F32.infMag : Int) < x.place ∧ x.place < F32.infMag := by
  rw [F32.isFinite_iff] at h
  unfold F32.place
  split <;> constructor <;> omega

/-- Integers of magnitude below 2^24 convert exactly (R12). -/
theorem F32.units_ofInt {n : Int} (h : n.natAbs < 2 ^ 24) :
    (F32.ofInt n).units = n * 2 ^ 149 ∧ (F32.ofInt n).isFinite = true := by
  have hm : ∃ m, m < F32.infMag ∧ F32.unitsOfMag m = n.natAbs * 2 ^ 149 := by
    by_cases h0 : n.natAbs = 0
    · exact ⟨0, by decide, by rw [h0]; rfl⟩
    · have h1 := Nat.log2_self_le h0
      have h2 := Nat.lt_log2_self (n := n.natAbs)
      have h3 : Nat.log2 n.natAbs < 24 := (Nat.log2_lt h0).2 h
      generalize Nat.log2 n.natAbs = l at *
      refine ⟨(126 + l) * 2 ^ 23 + n.natAbs * 2 ^ (23 - l), ?_, ?_⟩
      · have : n.natAbs * 2 ^ (23 - l) < 2 ^ 24 := by
          calc n.natAbs * 2 ^ (23 - l) < 2 ^ (l + 1) * 2 ^ (23 - l) := Nat.mul_lt_mul_of_pos_right h2 (by positivity)
            _ = 2 ^ 24 := by rw [← pow_add]; congr 1; omega
        rw [F32.infMag_eq]
        omega
      · rw [F32.unitsOfMag_split]
        · rw [mul_assoc, ← pow_add]; congr 2; omega
        · right
          calc 2 ^ 23 = 2 ^ l * 2 ^ (23 - l) := by rw [← pow_add]; congr 1; omega
            _ ≤ _ := Nat.mul_le_mul_right _ h1
        · have : n.natAbs * 2 ^ (23 - l) < 2 ^ (l + 1) * 2 ^ (23 - l) :=
            Nat.mul_lt_mul_of_pos_right h2 (by positivity)
          have e : 2 ^ (l + 1) * 2 ^ (23 - l) = 2 ^ 24 := by rw [← pow_add]; congr 1; omega
          omega
  obtain ⟨m, hm, hu⟩ := hm
  have hr : F32.roundMag (2 ^ 149 * n.natAbs) 1 = m := by rw [Nat.mul_comm, ← hu]; exact F32.roundMag_exact_one (le_of_lt hm)
  have hlt : m < 2 ^ 31 := lt_trans hm (by decide)
  unfold F32.ofInt
  rw [hr]
  refine ⟨?_, ?_⟩
  · simp only [F32.units, F32.absUnits, F32.sign_ofSignMag _ hlt, F32.mag_ofSignMag _ hlt, hu, decide_eq_true_eq]
    push_cast
    split
    · rw [abs_of_neg ‹_›]; ring
    · rw [abs_of_nonneg (by omega)]
  · rw [F32.isFinite_iff, F32.mag_ofSignMag _ hlt]; exact hm

end Sys2Proof
end

