-- ==== Sys2Proof/Laws/Memory.lean ====
section
/-! SUPPORT. The laws of the output buffers: a write is read back, leaves every other word alone, and keeps the
canonical form. -/

namespace Sys2Proof.Machine

@[simp] theorem outWord?_write_same (b : OutBuf) (k : Nat) (x : F32) : outWord? (outWrite b k x) k = some x := by
  induction b with
  | nil => simp [outWrite, outWord?]
  | cons e t ih =>
    obtain ⟨a, y⟩ := e
    by_cases h1 : k < a
    · simp [outWrite, outWord?, h1]
    · by_cases h2 : k = a
      · simp [outWrite, outWord?, h2]
      · simp [outWrite, outWord?, h1, h2, Ne.symm h2, ih]

theorem outWord?_write_other (b : OutBuf) {k j : Nat} (h : k ≠ j) (x : F32) :
    outWord? (outWrite b k x) j = outWord? b j := by
  induction b with
  | nil => simp [outWrite, outWord?, h]
  | cons e t ih =>
    obtain ⟨a, y⟩ := e
    by_cases h1 : k < a
    · simp [outWrite, outWord?, h1, h]
    · by_cases h2 : k = a
      · subst h2; simp [outWrite, outWord?, h]
      · simp [outWrite, outWord?, h1, h2, ih]

@[simp] theorem outRead_write_same (id : OutId) (b : OutBuf) (k : Nat) (x : F32) :
    outRead id (outWrite b k x) k = x := by
  simp [outRead]

theorem outRead_write_other (id : OutId) (b : OutBuf) {k j : Nat} (h : k ≠ j) (x : F32) :
    outRead id (outWrite b k x) j = outRead id b j := by
  simp [outRead, outWord?_write_other b h]

/-- What stands in a buffer after a write: the new word, or an old one at another address. -/
theorem mem_outWrite {b : OutBuf} {k : Nat} {x : F32} {e : Nat × F32} (h : e ∈ outWrite b k x) :
    e = (k, x) ∨ e ∈ b := by
  induction b with
  | nil => simpa [outWrite] using h
  | cons c t ih =>
    obtain ⟨a, y⟩ := c
    by_cases h1 : k < a
    · simpa [outWrite, h1] using h
    · by_cases h2 : k = a
      · subst h2
        simp [outWrite] at h
        rcases h with h | h
        · exact .inl h
        · exact .inr (List.mem_cons_of_mem _ h)
      · simp [outWrite, h1, h2] at h
        rcases h with h | h
        · simp [h]
        · rcases ih h with h | h
          · exact .inl h
          · exact .inr (List.mem_cons_of_mem _ h)

/-- A write below OUT_CAPACITY keeps the canonical form (20_memory.md R60). -/
theorem outWrite_wf {c : Config} {b : OutBuf} (hb : Memory.wfIn c b) {k : Nat} (hk : k < c.outCapacity) (x : F32) :
    Memory.wfIn c (outWrite b k x) := by
  refine ⟨?_, ?_⟩
  · have := hb.1
    clear hb hk
    induction b with
    | nil => simp [outWrite]
    | cons c t ih =>
      obtain ⟨a, y⟩ := c
      simp only [List.map_cons, List.pairwise_cons] at this
      by_cases h1 : k < a
      · simp only [outWrite, h1, if_true, List.map_cons, List.pairwise_cons, List.mem_cons]
        refine ⟨?_, this⟩
        rintro z (rfl | hz)
        · exact h1
        · exact lt_trans h1 (this.1 z hz)
      · by_cases h2 : k = a
        · subst h2; simpa [outWrite] using this
        · simp only [outWrite, h1, h2, if_false, List.map_cons, List.pairwise_cons]
          refine ⟨?_, ih this.2⟩
          intro z hz
          obtain ⟨e, he, rfl⟩ := List.mem_map.1 hz
          rcases mem_outWrite he with rfl | he
          · simp; omega
          · exact this.1 _ (List.mem_map.2 ⟨e, he, rfl⟩)
  · intro z hz
    obtain ⟨e, he, rfl⟩ := List.mem_map.1 hz
    rcases mem_outWrite he with rfl | he
    · exact hk
    · exact hb.2 _ (List.mem_map.2 ⟨e, he, rfl⟩)

/-- The empty buffer of the power-on state is in canonical form. -/
theorem memory_nil_wf (c : Config) : Memory.wfIn c [] := ⟨by simp, by simp⟩

theorem reset_outL_wf (c : Config) : Memory.wfIn c (State.resetIn c).outL := memory_nil_wf c
theorem reset_outR_wf (c : Config) : Memory.wfIn c (State.resetIn c).outR := memory_nil_wf c

/-- A word that is read stands in the buffer. -/
theorem mem_of_outWord? {b : OutBuf} {k : Nat} {x : F32} (h : outWord? b k = some x) : (k, x) ∈ b := by
  induction b with
  | nil => simp [outWord?] at h
  | cons c t ih =>
    obtain ⟨a, y⟩ := c
    by_cases h1 : a = k
    · subst h1; simp [outWord?] at h; simp [h]
    · simp [outWord?, h1] at h; exact List.mem_cons_of_mem _ (ih h)

end Sys2Proof.Machine
end

