-- ==== Sys2Proof/Laws/PerInstr.lean ====
section
/-! SUPPORT. Statements for all instructions, one lemma for each constructor. RowMatch: the encoded word of every
instruction is a word of its row of spec/opcode_table.json. -/

namespace Sys2Proof.Laws.RowMatch

/-- A row of the opcode table: its mask and its match. -/
structure Row where
  mask : Nat
  pattern : Nat

/-- The row of spec/opcode_table.json an instruction stands for. -/
def row (i : Instr) : Row :=
  match i with
  | .nop => ⟨0xFF000000, 0x00000000⟩
  | .reset => ⟨0xFF000000, 0x01000000⟩
  | .alloc _ _ => ⟨0xFF000000, 0x02000000⟩
  | .dealloc => ⟨0xFF000000, 0x03000000⟩
  | .pset _ _ => ⟨0xFF000000, 0x04000000⟩
  | .midi _ _ _ => ⟨0xFF000000, 0x05000000⟩
  | .render _ _ => ⟨0xFF000000, 0x06000000⟩
  | .reserved07 => ⟨0xFF000000, 0x07000000⟩
  | .reserved08 _ => ⟨0xF8000000, 0x08000000⟩
  | .reserved10 _ => ⟨0xF0000000, 0x10000000⟩
  | .reserved20 _ => ⟨0xE0000000, 0x20000000⟩
  | .reserved40 _ => ⟨0xC0000000, 0x40000000⟩
  | .reserved80 _ => ⟨0x80000000, 0x80000000⟩
  | .psetNoiseMix _ => ⟨0xFF0000FF, 0x04000000⟩
  | .psetEnvAttack _ => ⟨0xFF0000FF, 0x04000001⟩
  | .psetEnvDecay _ => ⟨0xFF0000FF, 0x04000002⟩
  | .psetEnvSustain _ => ⟨0xFF0000FF, 0x04000003⟩
  | .psetEnvRelease _ => ⟨0xFF0000FF, 0x04000004⟩
  | .psetOscMix _ => ⟨0xFF0000FF, 0x04000005⟩
  | .psetDetune _ => ⟨0xFF0000FF, 0x04000006⟩
  | .psetTune _ => ⟨0xFF0000FF, 0x04000007⟩
  | .psetNumVoices _ => ⟨0xFF0000FF, 0x04000008⟩
  | .psetVolumeTrim _ => ⟨0xFF0000FF, 0x04000009⟩
  | .psetOutputLevel _ => ⟨0xFF0000FF, 0x0400000A⟩
  | .psetVelocitySensitivity _ => ⟨0xFF0000FF, 0x0400000B⟩
  | .psetIgnoreVelocity _ => ⟨0xFF0000FF, 0x0400000C⟩
  | .psetLfoInc _ => ⟨0xFF0000FF, 0x0400000D⟩
  | .psetVibrato _ => ⟨0xFF0000FF, 0x0400000E⟩
  | .psetPwmDepth _ => ⟨0xFF0000FF, 0x0400000F⟩
  | .psetGlideMode _ => ⟨0xFF0000FF, 0x04000010⟩
  | .psetGlideRate _ => ⟨0xFF0000FF, 0x04000011⟩
  | .psetGlideBend _ => ⟨0xFF0000FF, 0x04000012⟩
  | .psetFilterKeyTracking _ => ⟨0xFF0000FF, 0x04000013⟩
  | .psetFilterQ _ => ⟨0xFF0000FF, 0x04000014⟩
  | .psetFilterLFODepth _ => ⟨0xFF0000FF, 0x04000015⟩
  | .psetFilterAttack _ => ⟨0xFF0000FF, 0x04000016⟩
  | .psetFilterDecay _ => ⟨0xFF0000FF, 0x04000017⟩
  | .psetFilterSustain _ => ⟨0xFF0000FF, 0x04000018⟩
  | .psetFilterRelease _ => ⟨0xFF0000FF, 0x04000019⟩
  | .psetFilterEnvDepth _ => ⟨0xFF0000FF, 0x0400001A⟩
  | .midiNoteOff _ => ⟨0xFFF00000, 0x05800000⟩
  | .midiNoteOn _ _ => ⟨0xFFF00000, 0x05900000⟩
  | .midiCc _ _ => ⟨0xFFF00000, 0x05B00000⟩
  | .midiPressure _ => ⟨0xFFF00000, 0x05D00000⟩
  | .midiBend _ _ => ⟨0xFFF00000, 0x05E00000⟩
  | .midiIgnored07 _ => ⟨0xFF800000, 0x05000000⟩
  | .midiIgnoredA => ⟨0xFFF00000, 0x05A00000⟩
  | .midiIgnoredC => ⟨0xFFF00000, 0x05C00000⟩
  | .midiIgnoredF => ⟨0xFFF00000, 0x05F00000⟩
  | .ccModWheel _ => ⟨0xFFF07F00, 0x05B00100⟩
  | .ccSustain _ => ⟨0xFFF07F00, 0x05B04000⟩
  | .ccFilterPos _ => ⟨0xFFF07F00, 0x05B04A00⟩
  | .ccFilterNeg _ => ⟨0xFFF07F00, 0x05B04B00⟩
  | .ccChannelMode _ => ⟨0xFFF07800, 0x05B07800⟩
  | .ccOther _ _ => ⟨0xFFF00000, 0x05B00000⟩
  | .ngReset => ⟨0xFF, 0x10⟩
  | .ngNext => ⟨0xFF, 0x11⟩
  | .envReset _ _ => ⟨0xFF, 0x20⟩
  | .envAttack _ _ => ⟨0xFF, 0x21⟩
  | .envNext _ _ => ⟨0xFF, 0x22⟩
  | .envRelease _ _ => ⟨0xFF, 0x23⟩
  | .envIsActive _ _ => ⟨0xFF, 0x24⟩
  | .envIsInAttack _ _ => ⟨0xFF, 0x25⟩
  | .oscReset _ _ => ⟨0xFF, 0x30⟩
  | .oscNext _ _ => ⟨0xFF, 0x31⟩
  | .oscSquare _ _ _ _ _ => ⟨0xFF, 0x32⟩
  | .fltReset _ => ⟨0xFF, 0x40⟩
  | .fltUpdate _ _ _ => ⟨0xFF, 0x41⟩
  | .fltRender _ _ => ⟨0xFF, 0x42⟩
  | .voiceReset _ => ⟨0xFF, 0x50⟩
  | .voiceRender _ _ => ⟨0xFF, 0x51⟩
  | .voiceUpdateLfo _ => ⟨0xFF, 0x52⟩
  | .voiceUpdatePan _ => ⟨0xFF, 0x53⟩
  | .voiceRelease _ => ⟨0xFF, 0x54⟩
  | .synNoteOn _ _ => ⟨0xFF, 0x60⟩
  | .synNoteOff _ => ⟨0xFF, 0x61⟩
  | .synFindFree => ⟨0xFF, 0x62⟩
  | .synCalcPeriod _ _ => ⟨0xFF, 0x63⟩
  | .synStartVoice _ _ _ => ⟨0xFF, 0x64⟩
  | .synRestartMono _ _ => ⟨0xFF, 0x65⟩
  | .synShiftQ => ⟨0xFF, 0x66⟩
  | .synNextQ => ⟨0xFF, 0x67⟩
  | .synLegato => ⟨0xFF, 0x68⟩
  | .synLfoStep => ⟨0xFF, 0x69⟩
  | .synUpdatePeriod _ => ⟨0xFF, 0x6A⟩
  | .smSet _ => ⟨0xFF, 0x6B⟩
  | .smNext => ⟨0xFF, 0x6C⟩
  | .synSafe _ => ⟨0xFF, 0x6D⟩

/-- A command word or a select code lies in a row. -/
def Matches (w : PortWord) (mask pattern : Nat) : Prop :=
  match w with
  | .command cmd _ => cmd &&& BitVec.ofNat 32 mask = BitVec.ofNat 32 pattern
  | .select code _ => code &&& BitVec.ofNat 8 mask = BitVec.ofNat 8 pattern

/-- The encoding of an instruction lies in its row. -/
def Statement (i : Instr) : Prop := Matches (encode i) (row i).mask (row i).pattern

/-- Two fields side by side, masked, are the masked fields side by side. -/
theorem append_and {a b : Nat} (x m p : BitVec a) (y n q : BitVec b) (hx : x &&& m = p) (hy : y &&& n = q) :
    (x ++ y) &&& (m ++ n) = p ++ q := by
  rw [← hx, ← hy]; exact BitVec.and_append

/-- A command whose row fixes bits of the opcode and of the immediate. -/
theorem command_row (op : BitVec 8) (imm : BitVec 24) (wdata : Word) (m p : BitVec 8) (m' p' : BitVec 24)
    (mask pattern : Nat) (h : op &&& m = p) (h' : imm &&& m' = p') (hm : BitVec.ofNat 32 mask = m ++ m')
    (hp : BitVec.ofNat 32 pattern = p ++ p') : Matches (commandWord op imm wdata) mask pattern := by
  show (op ++ imm : BitVec 32) &&& BitVec.ofNat 32 mask = BitVec.ofNat 32 pattern
  rw [hm, hp]
  exact append_and _ _ _ _ _ _ h h'

/-- A command whose row leaves the immediate free. -/
theorem opcode_row (op : BitVec 8) (imm : BitVec 24) (wdata : Word) (m p : BitVec 8) (mask pattern : Nat)
    (h : op &&& m = p) (hm : BitVec.ofNat 32 mask = m ++ 0#24) (hp : BitVec.ofNat 32 pattern = p ++ 0#24) :
    Matches (commandWord op imm wdata) mask pattern :=
  command_row op imm wdata m p _ _ mask pattern h BitVec.and_zero hm hp

theorem byte_and_ones (b : BitVec 8) : b &&& 0xFF#8 = b := BitVec.and_allOnes

/-- A PSET of a register of its own. -/
theorem pset_row (idx : BitVec 8) (wdata : Word) (pattern : Nat)
    (hp : BitVec.ofNat 32 pattern = 0x04#8 ++ (0#16 ++ idx)) : Matches (psetWord idx wdata) 0xFF0000FF pattern :=
  command_row _ _ _ 0xFF _ (0#16 ++ 0xFF#8) _ _ _ rfl
    (append_and _ _ _ _ _ _ BitVec.and_zero (byte_and_ones idx)) rfl hp

/-- A MIDI message whose row leaves the data bytes free. -/
theorem status_row (status : BitVec 4) (d1 d2 : BitVec 7) (m p : BitVec 8) (mask pattern : Nat)
    (h : (status ++ 0#4) &&& m = p) (hm : BitVec.ofNat 32 mask = 0xFF#8 ++ (m ++ 0#16))
    (hp : BitVec.ofNat 32 pattern = 0x05#8 ++ (p ++ 0#16)) : Matches (midiWord status d1 d2) mask pattern :=
  command_row _ _ _ 0xFF _ _ _ _ _ rfl (append_and _ _ _ _ _ _ h BitVec.and_zero) hm hp

/-- A control change whose row fixes bits of the controller number. -/
theorem cc_row (ctl val : BitVec 7) (m p : BitVec 8) (mask pattern : Nat) (h : (0#1 ++ ctl) &&& m = p)
    (hm : BitVec.ofNat 32 mask = 0xFF#8 ++ (0xF0#8 ++ (m ++ 0#8)))
    (hp : BitVec.ofNat 32 pattern = 0x05#8 ++ (0xB0#8 ++ (p ++ 0#8))) : Matches (midiWord 0xB ctl val) mask pattern :=
  command_row _ _ _ 0xFF _ _ _ _ _ rfl
    (append_and _ _ _ _ _ _ rfl (append_and _ _ _ _ _ _ h BitVec.and_zero)) hm hp

/-- A micro-operation. -/
theorem select_row (code : BitVec 8) (o : SelectOperands) (pattern : Nat) (h : code = BitVec.ofNat 8 pattern) :
    Matches (.select code o) 0xFF pattern := (byte_and_ones code).trans h

theorem nop : Statement .nop := opcode_row 0x00 0 0 0xFF 0x00 0xFF000000 0x00000000 rfl rfl rfl
theorem reset : Statement .reset := opcode_row 0x01 0 0 0xFF 0x01 0xFF000000 0x01000000 rfl rfl rfl
theorem alloc (blockSize : BitVec 24) (sampleRate : F32) : Statement (.alloc blockSize sampleRate) :=
  opcode_row 0x02 blockSize sampleRate.bits 0xFF 0x02 0xFF000000 0x02000000 rfl rfl rfl
theorem dealloc : Statement .dealloc := opcode_row 0x03 0 0 0xFF 0x03 0xFF000000 0x03000000 rfl rfl rfl
theorem pset (idx : BitVec 8) (wdata : Word) : Statement (.pset idx wdata) :=
  opcode_row 0x04 (0#16 ++ idx) wdata 0xFF 0x04 0xFF000000 0x04000000 rfl rfl rfl
theorem midi (b0 b1 b2 : BitVec 8) : Statement (.midi b0 b1 b2) :=
  opcode_row 0x05 (b0 ++ (b1 ++ b2)) 0 0xFF 0x05 0xFF000000 0x05000000 rfl rfl rfl
theorem render (stereo : Bool) (n : BitVec 23) : Statement (.render stereo n) :=
  opcode_row 0x06 (BitVec.ofBool stereo ++ n) 0 0xFF 0x06 0xFF000000 0x06000000 rfl rfl rfl
theorem reserved07 : Statement .reserved07 := opcode_row 0x07 0 0 0xFF 0x07 0xFF000000 0x07000000 rfl rfl rfl
theorem reserved08 (low : BitVec 3) : Statement (.reserved08 low) :=
  opcode_row (0b00001#5 ++ low) 0 0 0xF8 0x08 0xF8000000 0x08000000 (by revert low; decide) rfl rfl
theorem reserved10 (low : BitVec 4) : Statement (.reserved10 low) :=
  opcode_row (0b0001#4 ++ low) 0 0 0xF0 0x10 0xF0000000 0x10000000 (by revert low; decide) rfl rfl
theorem reserved20 (low : BitVec 5) : Statement (.reserved20 low) :=
  opcode_row (0b001#3 ++ low) 0 0 0xE0 0x20 0xE0000000 0x20000000 (by revert low; decide) rfl rfl
theorem reserved40 (low : BitVec 6) : Statement (.reserved40 low) :=
  opcode_row (0b01#2 ++ low) 0 0 0xC0 0x40 0xC0000000 0x40000000 (by revert low; decide) rfl rfl
theorem reserved80 (low : BitVec 7) : Statement (.reserved80 low) :=
  opcode_row (0b1#1 ++ low) 0 0 0x80 0x80 0x80000000 0x80000000 (by revert low; decide) rfl rfl
theorem psetNoiseMix (x : F32) : Statement (.psetNoiseMix x) := pset_row 0 x.bits 0x04000000 rfl
theorem psetEnvAttack (x : F32) : Statement (.psetEnvAttack x) := pset_row 1 x.bits 0x04000001 rfl
theorem psetEnvDecay (x : F32) : Statement (.psetEnvDecay x) := pset_row 2 x.bits 0x04000002 rfl
theorem psetEnvSustain (x : F32) : Statement (.psetEnvSustain x) := pset_row 3 x.bits 0x04000003 rfl
theorem psetEnvRelease (x : F32) : Statement (.psetEnvRelease x) := pset_row 4 x.bits 0x04000004 rfl
theorem psetOscMix (x : F32) : Statement (.psetOscMix x) := pset_row 5 x.bits 0x04000005 rfl
theorem psetDetune (x : F32) : Statement (.psetDetune x) := pset_row 6 x.bits 0x04000006 rfl
theorem psetTune (x : F32) : Statement (.psetTune x) := pset_row 7 x.bits 0x04000007 rfl
theorem psetNumVoices (x : BitVec 8) : Statement (.psetNumVoices x) := pset_row 8 (0#24 ++ x) 0x04000008 rfl
theorem psetVolumeTrim (x : F32) : Statement (.psetVolumeTrim x) := pset_row 9 x.bits 0x04000009 rfl
theorem psetOutputLevel (x : F32) : Statement (.psetOutputLevel x) := pset_row 10 x.bits 0x0400000A rfl
theorem psetVelocitySensitivity (x : F32) : Statement (.psetVelocitySensitivity x) :=
  pset_row 11 x.bits 0x0400000B rfl
theorem psetIgnoreVelocity (x : Bool) : Statement (.psetIgnoreVelocity x) :=
  pset_row 12 (0#31 ++ BitVec.ofBool x) 0x0400000C rfl
theorem psetLfoInc (x : F32) : Statement (.psetLfoInc x) := pset_row 13 x.bits 0x0400000D rfl
theorem psetVibrato (x : F32) : Statement (.psetVibrato x) := pset_row 14 x.bits 0x0400000E rfl
theorem psetPwmDepth (x : F32) : Statement (.psetPwmDepth x) := pset_row 15 x.bits 0x0400000F rfl
theorem psetGlideMode (x : BitVec 8) : Statement (.psetGlideMode x) := pset_row 16 (0#24 ++ x) 0x04000010 rfl
theorem psetGlideRate (x : F32) : Statement (.psetGlideRate x) := pset_row 17 x.bits 0x04000011 rfl
theorem psetGlideBend (x : F32) : Statement (.psetGlideBend x) := pset_row 18 x.bits 0x04000012 rfl
theorem psetFilterKeyTracking (x : F32) : Statement (.psetFilterKeyTracking x) := pset_row 19 x.bits 0x04000013 rfl
theorem psetFilterQ (x : F32) : Statement (.psetFilterQ x) := pset_row 20 x.bits 0x04000014 rfl
theorem psetFilterLFODepth (x : F32) : Statement (.psetFilterLFODepth x) := pset_row 21 x.bits 0x04000015 rfl
theorem psetFilterAttack (x : F32) : Statement (.psetFilterAttack x) := pset_row 22 x.bits 0x04000016 rfl
theorem psetFilterDecay (x : F32) : Statement (.psetFilterDecay x) := pset_row 23 x.bits 0x04000017 rfl
theorem psetFilterSustain (x : F32) : Statement (.psetFilterSustain x) := pset_row 24 x.bits 0x04000018 rfl
theorem psetFilterRelease (x : F32) : Statement (.psetFilterRelease x) := pset_row 25 x.bits 0x04000019 rfl
theorem psetFilterEnvDepth (x : F32) : Statement (.psetFilterEnvDepth x) := pset_row 26 x.bits 0x0400001A rfl
theorem midiNoteOff (note : BitVec 7) : Statement (.midiNoteOff note) :=
  status_row 0x8 note 0 0xF0 0x80 0xFFF00000 0x05800000 rfl rfl rfl
theorem midiNoteOn (note vel : BitVec 7) : Statement (.midiNoteOn note vel) :=
  status_row 0x9 note vel 0xF0 0x90 0xFFF00000 0x05900000 rfl rfl rfl
theorem midiCc (ctl val : BitVec 7) : Statement (.midiCc ctl val) :=
  status_row 0xB ctl val 0xF0 0xB0 0xFFF00000 0x05B00000 rfl rfl rfl
theorem midiPressure (val : BitVec 7) : Statement (.midiPressure val) :=
  status_row 0xD val 0 0xF0 0xD0 0xFFF00000 0x05D00000 rfl rfl rfl
theorem midiBend (d1 d2 : BitVec 7) : Statement (.midiBend d1 d2) :=
  status_row 0xE d1 d2 0xF0 0xE0 0xFFF00000 0x05E00000 rfl rfl rfl
theorem midiIgnored07 (status : BitVec 3) : Statement (.midiIgnored07 status) :=
  status_row (0#1 ++ status) 0 0 0x80 0x00 0xFF800000 0x05000000 (by revert status; decide) rfl rfl
theorem midiIgnoredA : Statement .midiIgnoredA := status_row 0xA 0 0 0xF0 0xA0 0xFFF00000 0x05A00000 rfl rfl rfl
theorem midiIgnoredC : Statement .midiIgnoredC := status_row 0xC 0 0 0xF0 0xC0 0xFFF00000 0x05C00000 rfl rfl rfl
theorem midiIgnoredF : Statement .midiIgnoredF := status_row 0xF 0 0 0xF0 0xF0 0xFFF00000 0x05F00000 rfl rfl rfl
theorem ccModWheel (val : BitVec 7) : Statement (.ccModWheel val) :=
  cc_row 1 val 0x7F 1 0xFFF07F00 0x05B00100 rfl rfl rfl
theorem ccSustain (val : BitVec 7) : Statement (.ccSustain val) :=
  cc_row 64 val 0x7F 64 0xFFF07F00 0x05B04000 rfl rfl rfl
theorem ccFilterPos (val : BitVec 7) : Statement (.ccFilterPos val) :=
  cc_row 74 val 0x7F 74 0xFFF07F00 0x05B04A00 rfl rfl rfl
theorem ccFilterNeg (val : BitVec 7) : Statement (.ccFilterNeg val) :=
  cc_row 75 val 0x7F 75 0xFFF07F00 0x05B04B00 rfl rfl rfl
theorem ccChannelMode (low : BitVec 3) : Statement (.ccChannelMode low) :=
  cc_row (0b1111#4 ++ low) 0 0x78 0x78 0xFFF07800 0x05B07800 (by revert low; decide) rfl rfl
theorem ccOther (ctl val : BitVec 7) : Statement (.ccOther ctl val) :=
  status_row 0xB ctl val 0xF0 0xB0 0xFFF00000 0x05B00000 rfl rfl rfl
theorem ngReset : Statement .ngReset := select_row 0x10 _ 0x10 rfl
theorem ngNext : Statement .ngNext := select_row 0x11 _ 0x11 rfl
theorem envReset (v : VoiceIx) (e : EnvSel) : Statement (.envReset v e) := select_row 0x20 _ 0x20 rfl
theorem envAttack (v : VoiceIx) (e : EnvSel) : Statement (.envAttack v e) := select_row 0x21 _ 0x21 rfl
theorem envNext (v : VoiceIx) (e : EnvSel) : Statement (.envNext v e) := select_row 0x22 _ 0x22 rfl
theorem envRelease (v : VoiceIx) (e : EnvSel) : Statement (.envRelease v e) := select_row 0x23 _ 0x23 rfl
theorem envIsActive (v : VoiceIx) (e : EnvSel) : Statement (.envIsActive v e) := select_row 0x24 _ 0x24 rfl
theorem envIsInAttack (v : VoiceIx) (e : EnvSel) : Statement (.envIsInAttack v e) := select_row 0x25 _ 0x25 rfl
theorem oscReset (v : VoiceIx) (o : OscSel) : Statement (.oscReset v o) := select_row 0x30 _ 0x30 rfl
theorem oscNext (v : VoiceIx) (o : OscSel) : Statement (.oscNext v o) := select_row 0x31 _ 0x31 rfl
theorem oscSquare (v : VoiceIx) (o : OscSel) (otherV : VoiceIx) (otherO : OscSel) (newPeriod : F32) :
    Statement (.oscSquare v o otherV otherO newPeriod) :=
  select_row 0x32 _ 0x32 rfl
theorem fltReset (v : VoiceIx) : Statement (.fltReset v) := select_row 0x40 _ 0x40 rfl
theorem fltUpdate (v : VoiceIx) (cutoffHz q : F32) : Statement (.fltUpdate v cutoffHz q) := select_row 0x41 _ 0x41 rfl
theorem fltRender (v : VoiceIx) (x : F32) : Statement (.fltRender v x) := select_row 0x42 _ 0x42 rfl
theorem voiceReset (v : VoiceIx) : Statement (.voiceReset v) := select_row 0x50 _ 0x50 rfl
theorem voiceRender (v : VoiceIx) (input : F32) : Statement (.voiceRender v input) := select_row 0x51 _ 0x51 rfl
theorem voiceUpdateLfo (v : VoiceIx) : Statement (.voiceUpdateLfo v) := select_row 0x52 _ 0x52 rfl
theorem voiceUpdatePan (v : VoiceIx) : Statement (.voiceUpdatePan v) := select_row 0x53 _ 0x53 rfl
theorem voiceRelease (v : VoiceIx) : Statement (.voiceRelease v) := select_row 0x54 _ 0x54 rfl
theorem synNoteOn (note vel : BitVec 7) : Statement (.synNoteOn note vel) := select_row 0x60 _ 0x60 rfl
theorem synNoteOff (note : BitVec 7) : Statement (.synNoteOff note) := select_row 0x61 _ 0x61 rfl
theorem synFindFree : Statement .synFindFree := select_row 0x62 _ 0x62 rfl
theorem synCalcPeriod (v : VoiceIx) (note : BitVec 7) : Statement (.synCalcPeriod v note) :=
  select_row 0x63 _ 0x63 rfl
theorem synStartVoice (v : VoiceIx) (note vel : BitVec 7) : Statement (.synStartVoice v note vel) :=
  select_row 0x64 _ 0x64 rfl
theorem synRestartMono (note : BitVec 7) (vel : BitVec 8) : Statement (.synRestartMono note vel) :=
  select_row 0x65 _ 0x65 rfl
theorem synShiftQ : Statement .synShiftQ := select_row 0x66 _ 0x66 rfl
theorem synNextQ : Statement .synNextQ := select_row 0x67 _ 0x67 rfl
theorem synLegato : Statement .synLegato := select_row 0x68 _ 0x68 rfl
theorem synLfoStep : Statement .synLfoStep := select_row 0x69 _ 0x69 rfl
theorem synUpdatePeriod (v : VoiceIx) : Statement (.synUpdatePeriod v) := select_row 0x6A _ 0x6A rfl
theorem smSet (x : F32) : Statement (.smSet x) := select_row 0x6B _ 0x6B rfl
theorem smNext : Statement .smNext := select_row 0x6C _ 0x6C rfl
theorem synSafe (x : F32) : Statement (.synSafe x) := select_row 0x6D _ 0x6D rfl

end Sys2Proof.Laws.RowMatch
end

