-- ==== Sys2Proof/Laws/Render.lean ====
section
/-! SUPPORT. What a block does to one voice and to one word of a buffer (spec 45_synth_render.md R211, R212, R217 to
R219), so that a proof about RENDER never unfolds the sample loop. -/

namespace Sys2Proof.Machine

/-- RENDER is the block where nothing refuses it: allocated, every parameter legal, the block within OUT_CAPACITY. -/
theorem execRenderIn_of_ready {c : Config} {s : State} (ha : s.allocated = true) (hr : s.p.ready c = true)
    (stereo : Bool) {n : BitVec 23} (hn : n.toNat ≤ c.outCapacity) :
    execRenderIn c stereo n s = .next (renderBlock c stereo n.toNat s) := by
  unfold execRenderIn renderRefusal capacityRefusal
  rw [ha, checkReads_of_ready hr, if_neg (Nat.not_lt.2 hn)]
  rfl

/-- RENDER that answers a next state ran the block, and the block was within OUT_CAPACITY. -/
theorem execRenderIn_next {c : Config} {s t : State} {stereo : Bool} {n : BitVec 23}
    (h : execRenderIn c stereo n s = .next t) : n.toNat ≤ c.outCapacity ∧ t = renderBlock c stereo n.toNat s := by
  unfold execRenderIn renderRefusal at h
  split at h
  · cases h
  · cases hc : checkReads c s.p (renderReads c n.toNat s) with
    | some r => rw [hc] at h; cases h
    | none =>
      rw [hc, Option.none_or] at h
      unfold capacityRefusal at h
      split at h
      · cases h
      · cases h; exact ⟨by omega, rfl⟩

/-- RENDER of a block beyond OUT_CAPACITY is refused whatever the state (log 23). -/
theorem execRenderIn_beyond {c : Config} {n : BitVec 23} (hn : c.outCapacity < n.toNat) (stereo : Bool) (s : State) :
    ∃ r, execRenderIn c stereo n s = .refused r := by
  cases h : execRenderIn c stereo n s with
  | next t => exact absurd (execRenderIn_next h).1 (by omega)
  | fault f => cases f
  | refused r => exact ⟨r, rfl⟩

/-- No block is beyond the capacity in force. -/
theorem block_within_capacity (n : BitVec 23) : n.toNat ≤ cfg.outCapacity := by
  have : cfg.outCapacity = 8388607 := rfl
  have := n.isLt
  omega

/-- RENDER after the boot of R356 is the block. -/
theorem exec_render_of_ready {s : State} (ha : s.allocated = true) (hr : s.p.ready cfg = true) (stereo : Bool)
    (n : BitVec 23) : execRender stereo n s = .next (renderBlock cfg stereo n.toNat s) :=
  execRenderIn_of_ready ha hr stereo (block_within_capacity n)

/-! ## One voice -/

/-- The prologue does not change which voices are active. -/
@[simp] theorem prologueVoice_active (c : Config) (bend : F32) (p : Params) (v : Voice) :
    (prologueVoice c bend p v).active c = v.active c := by
  unfold prologueVoice
  split <;> rfl

/-- An inactive voice is not touched by the prologue (R211). -/
theorem prologueVoice_inactive {c : Config} {v : Voice} (h : v.active c = false) (bend : F32) (p : Params) :
    prologueVoice c bend p v = v := by
  unfold prologueVoice
  rw [if_neg (by rw [h]; decide)]

/-- An inactive voice is not touched by an LFO step (R214). -/
theorem lfoStep_inactive {c : Config} {s : State} {v : VoiceIx} (h : (s.voice v).active c = false) :
    (lfoStep c s).voice v = s.voice v := by
  unfold lfoStep
  split
  · show (s.voices.map _).get v = s.voices.get v
    rw [Bank.get_map]
    unfold tickVoice
    rw [if_neg (by rw [show s.voices.get v = s.voice v from rfl, h]; decide)]
  · rfl

/-- An inactive voice is not touched by a sample step (R212). -/
theorem sampleStep_inactive {c : Config} {s : State} {v : VoiceIx} (h : (s.voice v).active c = false) (stereo : Bool)
    (k : Nat) : (sampleStep c stereo k s).voice v = s.voice v := by
  unfold sampleStep
  dsimp only
  rw [writeSample_frame]
  show ((Bank.map _ (Bank.map _ _) : Bank Voice).get v) = _
  have hl : (lfoStep c { s with ng := noiseSeedNext c s.ng }).voices.get v = s.voice v :=
    lfoStep_inactive (s := { s with ng := noiseSeedNext c s.ng }) h
  rw [Bank.get_map, Bank.get_map, hl]
  unfold mixVoice
  rw [if_neg (by rw [h]; decide)]

theorem sampleSteps_inactive {c : Config} {v : VoiceIx} (stereo : Bool) (count k : Nat) (s : State)
    (h : (s.voice v).active c = false) : (sampleSteps c stereo count k s).voice v = s.voice v := by
  induction count generalizing k s with
  | zero => rfl
  | succ n ih =>
    have e := sampleStep_inactive h stereo k
    show (sampleSteps c stereo n (k + 1) (sampleStep c stereo k s)).voice v = _
    rw [ih (k + 1) _ (by rw [e]; exact h), e]

/-- A voice after a block is the sweep of the voice after the sample steps (R218). -/
theorem renderBlock_voice (c : Config) (stereo : Bool) (n : Nat) (s : State) (v : VoiceIx) :
    (renderBlock c stereo n s).voice v =
      sweepVoice c ((s.voice v).active c) ((sampleSteps c stereo n 0 (prologue c s)).voice v) := by
  show ((Bank.zip _ _ _ : Bank Voice).get v) = _
  rw [Bank.get_zip, Bank.get_map]
  rfl

/-! ## One word -/

/-- A sample step writes word `k` alone (R217). -/
theorem sampleStep_word_other {c : Config} {s : State} {j k : Nat} (h : j ≠ k) (stereo : Bool) :
    outWord? (sampleStep c stereo k s).outL j = outWord? s.outL j ∧
      outWord? (sampleStep c stereo k s).outR j = outWord? s.outR j := by
  unfold sampleStep writeSample
  dsimp only
  split <;> rw [lfoStep_frame]
  · exact ⟨outWord?_write_other _ (Ne.symm h) _, outWord?_write_other _ (Ne.symm h) _⟩
  · exact ⟨outWord?_write_other _ (Ne.symm h) _, rfl⟩

theorem sampleSteps_word_other {c : Config} {j : Nat} (stereo : Bool) (count k : Nat) (s : State)
    (h : j < k ∨ k + count ≤ j) :
    outWord? (sampleSteps c stereo count k s).outL j = outWord? s.outL j ∧
      outWord? (sampleSteps c stereo count k s).outR j = outWord? s.outR j := by
  induction count generalizing k s with
  | zero => exact ⟨rfl, rfl⟩
  | succ n ih =>
    have a := ih (k + 1) (sampleStep c stereo k s) (by omega)
    have b := sampleStep_word_other (c := c) (s := s) (show j ≠ k by omega) stereo
    exact ⟨a.1.trans b.1, a.2.trans b.2⟩

/-- The safety pass replaces each word below `n` by its safe value and leaves the others (R219). -/
theorem outWord?_safetyBuf (c : Config) (id : OutId) (n : Nat) (b : OutBuf) (j : Nat) :
    outWord? (safetyBuf c id n b) j = if j < n then some (safe c (outRead id b j)) else outWord? b j := by
  induction n generalizing j with
  | zero => simp [safetyBuf]
  | succ n ih =>
    have e : safetyBuf c id (n + 1) b =
        outWrite (safetyBuf c id n b) n (safe c (outRead id (safetyBuf c id n b) n)) := by
      unfold safetyBuf
      rw [List.range_succ, List.foldl_append]
      rfl
    rw [e]
    by_cases hj : j = n
    · subst hj
      rw [outWord?_write_same, if_pos (by omega)]
      have : outRead id (safetyBuf c id j b) j = outRead id b j := by
        unfold outRead
        rw [ih j, if_neg (by omega)]
      rw [this]
    · rw [outWord?_write_other _ (Ne.symm hj), ih j]
      by_cases h1 : j < n
      · rw [if_pos h1, if_pos (by omega)]
      · rw [if_neg h1, if_neg (by omega)]

/-- The safety pass keeps the canonical form (20_memory.md R60). -/
theorem safetyBuf_wf {c d : Config} {id : OutId} {n : Nat} {b : OutBuf} (hb : Memory.wfIn d b)
    (hn : n ≤ d.outCapacity) : Memory.wfIn d (safetyBuf c id n b) := by
  induction n with
  | zero => exact hb
  | succ n ih =>
    have e : safetyBuf c id (n + 1) b =
        outWrite (safetyBuf c id n b) n (safe c (outRead id (safetyBuf c id n b) n)) := by
      unfold safetyBuf
      rw [List.range_succ, List.foldl_append]
      rfl
    rw [e]
    exact outWrite_wf (ih (by omega)) (by omega) _

/-- Sample steps up to OUT_CAPACITY keep the canonical form of both buffers (20_memory.md R60). -/
theorem sampleSteps_wf {c d : Config} (stereo : Bool) (count k : Nat) (s : State) (hk : k + count ≤ d.outCapacity)
    (hl : Memory.wfIn d s.outL) (hr : Memory.wfIn d s.outR) :
    Memory.wfIn d (sampleSteps c stereo count k s).outL ∧ Memory.wfIn d (sampleSteps c stereo count k s).outR := by
  induction count generalizing k s with
  | zero => exact ⟨hl, hr⟩
  | succ n ih =>
    have h : Memory.wfIn d (sampleStep c stereo k s).outL ∧ Memory.wfIn d (sampleStep c stereo k s).outR := by
      unfold sampleStep writeSample
      dsimp only
      split <;> rw [lfoStep_frame]
      · exact ⟨outWrite_wf hl (by omega) _, outWrite_wf hr (by omega) _⟩
      · exact ⟨outWrite_wf hl (by omega) _, hr⟩
    exact ih (k + 1) _ (by omega) h.1 h.2

/-- A block within OUT_CAPACITY keeps the canonical form of both buffers (20_memory.md R60). -/
theorem renderBlock_wf {c d : Config} (stereo : Bool) {n : Nat} (hn : n ≤ d.outCapacity) {s : State}
    (hl : Memory.wfIn d s.outL) (hr : Memory.wfIn d s.outR) :
    Memory.wfIn d (renderBlock c stereo n s).outL ∧ Memory.wfIn d (renderBlock c stereo n s).outR := by
  have h := sampleSteps_wf (c := c) stereo n 0 (prologue c s) (by omega) hl hr
  refine ⟨safetyBuf_wf h.1 hn, ?_⟩
  show Memory.wfIn d (if stereo then _ else _)
  split
  · exact safetyBuf_wf h.2 hn
  · exact h.2

end Sys2Proof.Machine
end

