-- ==== Sys2Proof/Tests/Slice0.lean ====
section
/-! SUPPORT. Tests of the model against the tables of spec/95_test_vectors.md and spec/30_encoding.md, and for every
obligation with hypotheses a witness that meets them. Expected values are the spec's; none comes from the model. -/

namespace Sys2Proof.Tests

open Sys2Proof.Machine

/-! ## Small states -/

/-- The parameter set T of 95_test_vectors.md section 1. -/
def paramsT : Params where
  noiseMix := ⟨⟨0⟩, true⟩
  envAttack := ⟨⟨0x3F000000⟩, true⟩
  envDecay := ⟨⟨0x3F000000⟩, true⟩
  envSustain := ⟨⟨0x3F000000⟩, true⟩
  envRelease := ⟨⟨0x3F000000⟩, true⟩
  oscMix := ⟨⟨0⟩, true⟩
  detune := ⟨⟨0x3F800000⟩, true⟩
  tune := ⟨⟨0x45800000⟩, true⟩
  numVoices := ⟨8, true⟩
  volumeTrim := ⟨⟨0x3A800000⟩, true⟩
  outputLevel := ⟨⟨0x3F800000⟩, true⟩
  velocitySensitivity := ⟨⟨0⟩, true⟩
  ignoreVelocity := ⟨false, true⟩
  lfoInc := ⟨⟨0⟩, true⟩
  vibrato := ⟨⟨0⟩, true⟩
  pwmDepth := ⟨⟨0⟩, true⟩
  glideMode := ⟨0, true⟩
  glideRate := ⟨⟨0x3F800000⟩, true⟩
  glideBend := ⟨⟨0⟩, true⟩
  filterKeyTracking := ⟨⟨0⟩, true⟩
  filterQ := ⟨⟨0⟩, true⟩
  filterLFODepth := ⟨⟨0⟩, true⟩
  filterAttack := ⟨⟨0x3F000000⟩, true⟩
  filterDecay := ⟨⟨0x3F000000⟩, true⟩
  filterSustain := ⟨⟨0x3F000000⟩, true⟩
  filterRelease := ⟨⟨0x3F000000⟩, true⟩
  filterEnvDepth := ⟨⟨0⟩, true⟩

/-- Power-on with the sample rate allocated and T written. -/
def armed : State := { State.reset with allocated := true, p := paramsT }

/-- The same in mono mode. -/
def armedMono : State := { armed with p := { paramsT with numVoices := ⟨1, true⟩ } }

/-- `s` with the note register of voice `v` set. -/
def hold (v : VoiceIx) (note : BitVec 8) (s : State) : State := s.setVoice v { s.voice v with note := note }

/-- `s` with the amplitude envelope of voice `v` at this level. -/
def atLevel (v : VoiceIx) (level : F32) (s : State) : State :=
  s.setVoice v { s.voice v with env := { (s.voice v).env with level := level } }

/-- A property of the next state, false of a fault or a refusal. -/
def nextHas (o : Host.Outcome State Fault Refusal) (p : State → Bool) : Bool :=
  match o with
  | .next t => p t
  | .fault _ => false
  | .refused _ => false

/-! ## WellFormed refuses ill-formed terms -/

theorem test_wf_pset_low_index : (Instr.pset 26 0).wellFormed = false := by decide
theorem test_wf_pset_high_index : (Instr.pset 27 0).wellFormed = true := by decide
theorem test_wf_midi_umbrella : (Instr.midi 0x90 60 100).wellFormed = false := by decide
theorem test_wf_cc_umbrella : (Instr.midiCc 7 100).wellFormed = false := by decide
theorem test_wf_cc_other_listed :
    (Instr.ccOther 1 0).wellFormed = false ∧ (Instr.ccOther 64 0).wellFormed = false ∧
    (Instr.ccOther 74 0).wellFormed = false ∧ (Instr.ccOther 75 0).wellFormed = false := by decide
theorem test_wf_cc_other_channel_mode :
    (Instr.ccOther 120 0).wellFormed = false ∧ (Instr.ccOther 119 0).wellFormed = true := by decide

/-- A configuration whose mod wheel is controller 2 and whose sustain pedal has a number already taken (R8). -/
def otherControllers : Config := { cfg with ccModwheel := 2, ccSustain := 2 }

theorem test_wf_controllers_configured :
    (Instr.ccModWheel 5).wellFormedIn otherControllers = true ∧ (Instr.ccSustain 5).wellFormedIn otherControllers = false ∧
    (Instr.ccOther 1 5).wellFormedIn otherControllers = true ∧ (Instr.ccOther 2 5).wellFormedIn otherControllers = false ∧
    (Instr.ccModWheel 5).wellFormed = true ∧ (Instr.ccSustain 5).wellFormed = true ∧
    (Instr.ccChannelMode 7).wellFormedIn { cfg with ccFilterPos := 127 } = false := by decide

/-! ## Decoding, words written out from spec/30_encoding.md and 95_test_vectors.md sections 9 and 11 -/

theorem test_decode_resources :
    decode (.command 0x00000000 0) = .ok .nop ∧ decode (.command 0x01FFFFFF 0) = .ok .reset ∧
    decode (.command 0x02000200 0x472C4400) = .ok (.alloc 512 ⟨0x472C4400⟩) ∧
    decode (.command 0x03000000 0) = .ok .dealloc := ⟨rfl, rfl, rfl, rfl⟩

theorem test_decode_render :
    decode (.command 0x06800004 0) = .ok (.render true 4) ∧ decode (.command 0x06000004 0) = .ok (.render false 4) ∧
    decode (.command 0x06FFFFFF 0) = .ok (.render true 8388607) := ⟨rfl, rfl, rfl⟩

theorem test_decode_reserved :
    decode (.command 0x07000000 0) = .ok .reserved07 ∧ decode (.command 0x0F000000 0) = .ok (.reserved08 7) ∧
    decode (.command 0x1A000000 0) = .ok (.reserved10 10) ∧ decode (.command 0x21000000 0) = .ok (.reserved20 1) ∧
    decode (.command 0x7F000000 0) = .ok (.reserved40 63) ∧ decode (.command 0xFFFFFFFF 0) = .ok (.reserved80 127) :=
  ⟨rfl, rfl, rfl, rfl, rfl, rfl⟩

theorem test_decode_pset_f32_low :
    decode (.command 0x04000000 0x3F000000) = .ok (.psetNoiseMix ⟨0x3F000000⟩) ∧
    decode (.command 0x04000001 0x3F000000) = .ok (.psetEnvAttack ⟨0x3F000000⟩) ∧
    decode (.command 0x04000002 0x3F000000) = .ok (.psetEnvDecay ⟨0x3F000000⟩) ∧
    decode (.command 0x04000003 0x3F000000) = .ok (.psetEnvSustain ⟨0x3F000000⟩) ∧
    decode (.command 0x04000004 0x3F000000) = .ok (.psetEnvRelease ⟨0x3F000000⟩) ∧
    decode (.command 0x04000005 0x3F800000) = .ok (.psetOscMix ⟨0x3F800000⟩) ∧
    decode (.command 0x04000006 0x3F800000) = .ok (.psetDetune ⟨0x3F800000⟩) ∧
    decode (.command 0x04000007 0x45800000) = .ok (.psetTune ⟨0x45800000⟩) :=
  ⟨rfl, rfl, rfl, rfl, rfl, rfl, rfl, rfl⟩

theorem test_decode_pset_f32_mid :
    decode (.command 0x04000009 0x3A800000) = .ok (.psetVolumeTrim ⟨0x3A800000⟩) ∧
    decode (.command 0x0400000A 0x3F800000) = .ok (.psetOutputLevel ⟨0x3F800000⟩) ∧
    decode (.command 0x0400000B 0x3F800000) = .ok (.psetVelocitySensitivity ⟨0x3F800000⟩) ∧
    decode (.command 0x0400000D 0x3F800000) = .ok (.psetLfoInc ⟨0x3F800000⟩) ∧
    decode (.command 0x0400000E 0x3F800000) = .ok (.psetVibrato ⟨0x3F800000⟩) ∧
    decode (.command 0x0400000F 0x3F800000) = .ok (.psetPwmDepth ⟨0x3F800000⟩) ∧
    decode (.command 0x04000011 0x3F800000) = .ok (.psetGlideRate ⟨0x3F800000⟩) ∧
    decode (.command 0x04000012 0x40000000) = .ok (.psetGlideBend ⟨0x40000000⟩) :=
  ⟨rfl, rfl, rfl, rfl, rfl, rfl, rfl, rfl⟩

theorem test_decode_pset_f32_high :
    decode (.command 0x04000013 1) = .ok (.psetFilterKeyTracking ⟨1⟩) ∧
    decode (.command 0x04000014 1) = .ok (.psetFilterQ ⟨1⟩) ∧
    decode (.command 0x04000015 1) = .ok (.psetFilterLFODepth ⟨1⟩) ∧
    decode (.command 0x04000016 1) = .ok (.psetFilterAttack ⟨1⟩) ∧
    decode (.command 0x04000017 1) = .ok (.psetFilterDecay ⟨1⟩) ∧
    decode (.command 0x04000018 1) = .ok (.psetFilterSustain ⟨1⟩) ∧
    decode (.command 0x04000019 1) = .ok (.psetFilterRelease ⟨1⟩) ∧
    decode (.command 0x0400001A 1) = .ok (.psetFilterEnvDepth ⟨1⟩) := ⟨rfl, rfl, rfl, rfl, rfl, rfl, rfl, rfl⟩

theorem test_decode_pset_narrow :
    decode (.command 0x04000008 0x00000101) = .ok (.psetNumVoices 1) ∧
    decode (.command 0x04000010 0x00000002) = .ok (.psetGlideMode 2) ∧
    decode (.command 0x0400000C 0x00000001) = .ok (.psetIgnoreVelocity true) ∧
    decode (.command 0x0400000C 0xFFFFFFFE) = .ok (.psetIgnoreVelocity false) ∧
    decode (.command 0x0400001B 5) = .ok (.pset 27 5) ∧ decode (.command 0x04FFFFFF 5) = .ok (.pset 255 5) :=
  ⟨rfl, rfl, rfl, rfl, rfl, rfl⟩

theorem test_decode_midi :
    decode (.command 0x05803C00 0) = .ok (.midiNoteOff 60) ∧
    decode (.command 0x059FBCE4 0) = .ok (.midiNoteOn 60 100) ∧
    decode (.command 0x05D04000 0) = .ok (.midiPressure 64) ∧
    decode (.command 0x05E00060 0) = .ok (.midiBend 0 96) ∧
    decode (.command 0x05400102 0) = .ok (.midiIgnored07 4) ∧ decode (.command 0x05A03C0A 0) = .ok .midiIgnoredA ∧
    decode (.command 0x05C00500 0) = .ok .midiIgnoredC ∧ decode (.command 0x05F00102 0) = .ok .midiIgnoredF :=
  ⟨rfl, rfl, rfl, rfl, rfl, rfl, rfl, rfl⟩

theorem test_decode_cc :
    decode (.command 0x05B00140 0) = .ok (.ccModWheel 64) ∧ decode (.command 0x05B04040 0) = .ok (.ccSustain 64) ∧
    decode (.command 0x05B04A7F 0) = .ok (.ccFilterPos 127) ∧ decode (.command 0x05B04B01 0) = .ok (.ccFilterNeg 1) ∧
    decode (.command 0x05B07800 0) = .ok (.ccChannelMode 0) ∧ decode (.command 0x05B07F00 0) = .ok (.ccChannelMode 7) ∧
    decode (.command 0x05B00764 0) = .ok (.ccOther 7 100) ∧ decode (.command 0x05B07764 0) = .ok (.ccOther 119 100) :=
  ⟨rfl, rfl, rfl, rfl, rfl, rfl, rfl, rfl⟩

theorem test_decode_cc_configured :
    decodeIn otherControllers (.command 0x05B00240 0) = .ok (.ccModWheel 64) ∧
    decodeIn otherControllers (.command 0x05B00140 0) = .ok (.ccOther 1 64) ∧
    encodeIn otherControllers (.ccModWheel 64) = .command 0x05B00240 0 := ⟨rfl, rfl, rfl⟩

theorem test_decode_micro_noise_envelope :
    decode (.select 0x10 ⟨0, 0, 0⟩) = .ok .ngReset ∧ decode (.select 0x11 ⟨0, 0, 0⟩) = .ok .ngNext ∧
    decode (.select 0x20 ⟨0, 0, 0⟩) = .ok (.envReset 0 .amp) ∧
    decode (.select 0x21 ⟨9, 0, 0⟩) = .ok (.envAttack 1 .filt) ∧
    decode (.select 0x22 ⟨7, 0, 0⟩) = .ok (.envNext 7 .amp) ∧ decode (.select 0x23 ⟨0, 0, 0⟩) = .ok (.envRelease 0 .amp) ∧
    decode (.select 0x24 ⟨0, 0, 0⟩) = .ok (.envIsActive 0 .amp) ∧
    decode (.select 0x25 ⟨0, 0, 0⟩) = .ok (.envIsInAttack 0 .amp) := ⟨rfl, rfl, rfl, rfl, rfl, rfl, rfl, rfl⟩

theorem test_decode_micro_oscillator_filter :
    decode (.select 0x30 ⟨8, 0, 0⟩) = .ok (.oscReset 0 .two) ∧ decode (.select 0x31 ⟨2, 0, 0⟩) = .ok (.oscNext 2 .one) ∧
    decode (.select 0x32 ⟨0x5A, 0x43000000, 0⟩) = .ok (.oscSquare 2 .two 5 .one ⟨0x43000000⟩) ∧
    decode (.select 0x40 ⟨3, 0, 0⟩) = .ok (.fltReset 3) ∧
    decode (.select 0x41 ⟨0, 0x447A0000, 0x41700000⟩) = .ok (.fltUpdate 0 ⟨0x447A0000⟩ ⟨0x41700000⟩) ∧
    decode (.select 0x42 ⟨0, 0x3F800000, 0⟩) = .ok (.fltRender 0 ⟨0x3F800000⟩) := ⟨rfl, rfl, rfl, rfl, rfl, rfl⟩

theorem test_decode_micro_voice :
    decode (.select 0x50 ⟨6, 0, 0⟩) = .ok (.voiceReset 6) ∧ decode (.select 0x51 ⟨0, 1, 0⟩) = .ok (.voiceRender 0 ⟨1⟩) ∧
    decode (.select 0x52 ⟨0, 0, 0⟩) = .ok (.voiceUpdateLfo 0) ∧ decode (.select 0x53 ⟨0, 0, 0⟩) = .ok (.voiceUpdatePan 0) ∧
    decode (.select 0x54 ⟨0, 0, 0⟩) = .ok (.voiceRelease 0) := ⟨rfl, rfl, rfl, rfl, rfl⟩

theorem test_decode_micro_synth :
    decode (.select 0x60 ⟨0x643C00, 0, 0⟩) = .ok (.synNoteOn 60 100) ∧
    decode (.select 0x61 ⟨0x3C00, 0, 0⟩) = .ok (.synNoteOff 60) ∧ decode (.select 0x62 ⟨0, 0, 0⟩) = .ok .synFindFree ∧
    decode (.select 0x63 ⟨0x3C01, 0, 0⟩) = .ok (.synCalcPeriod 1 60) ∧
    decode (.select 0x64 ⟨0x643C02, 0, 0⟩) = .ok (.synStartVoice 2 60 100) ∧
    decode (.select 0x65 ⟨0xFF3C00, 0, 0⟩) = .ok (.synRestartMono 60 0xFF) ∧
    decode (.select 0x66 ⟨0, 0, 0⟩) = .ok .synShiftQ ∧ decode (.select 0x67 ⟨0, 0, 0⟩) = .ok .synNextQ ∧
    decode (.select 0x68 ⟨0, 0, 0⟩) = .ok .synLegato ∧ decode (.select 0x69 ⟨0, 0, 0⟩) = .ok .synLfoStep ∧
    decode (.select 0x6A ⟨4, 0, 0⟩) = .ok (.synUpdatePeriod 4) ∧ decode (.select 0x6B ⟨0, 1, 0⟩) = .ok (.smSet ⟨1⟩) ∧
    decode (.select 0x6C ⟨0, 0, 0⟩) = .ok .smNext ∧ decode (.select 0x6D ⟨0, 1, 0⟩) = .ok (.synSafe ⟨1⟩) :=
  ⟨rfl, rfl, rfl, rfl, rfl, rfl, rfl, rfl, rfl, rfl, rfl, rfl, rfl, rfl⟩

theorem test_decode_unassigned_select :
    decode (.select 0x26 ⟨0, 0, 0⟩) = .error (.unassignedSelectCode 0x26) ∧
    decode (.select 0x6E ⟨0, 0, 0⟩) = .error (.unassignedSelectCode 0x6E) := ⟨rfl, rfl⟩

/-- The fetch form: a row's word placed at the port is executed by the next step. -/
theorem test_fetch_word :
    decodeTableWord 32 0x04000008 = some (.psetNumVoices 0) ∧ decodeTableWord 8 0x11 = some .ngNext ∧
    decodeTableWord 8 0x6E = none ∧
    nextHas (step (State.reset.withFetchWord 8 0x11)) (fun t => t.ng = 0xEEF79411) = true := by decide

/-! ## Values, from 95_test_vectors.md -/

/-- Section 3, calls 1 and 2, and the least and the greatest value. -/
theorem test_noise_values :
    noiseSeedNext cfg 0x000056CE = 0xEEF79411 ∧ noiseSample cfg 0xEEF79411 = ⟨0x3F5E5044⟩ ∧
    noiseSeedNext cfg 0xEEF79411 = 0x9A96CEF0 ∧ noiseSample cfg 0x9A96CEF0 = ⟨0xBF24C440⟩ ∧
    noiseSample cfg 0x12800000 = ⟨0xBF800000⟩ ∧ noiseSample cfg 0x007FFFFF = ⟨0x3F7FFFFC⟩ := by decide

/-- Section 4, E1: ENV.ATTACK from the reset state, and the first call with its switch. -/
def envE1 : Envelope := ⟨⟨0⟩, ⟨0⟩, ⟨0⟩, ⟨0x3F000000⟩, ⟨0x3F000000⟩, ⟨0x3F000000⟩, ⟨0x3F000000⟩⟩

theorem test_env_attack :
    (envAttack cfg envE1).level = ⟨0x3951B717⟩ ∧ (envAttack cfg envE1).target = ⟨0x40000000⟩ ∧
    (envAttack cfg envE1).multiplier = ⟨0x3F000000⟩ := by decide

theorem test_env_next :
    envNext cfg (envAttack cfg envE1) =
      { envE1 with level := ⟨0x3F800347⟩, target := ⟨0x3F000000⟩, multiplier := ⟨0x3F000000⟩ } ∧
    (envNext cfg (envNext cfg (envAttack cfg envE1))).level = ⟨0x3F400347⟩ := by decide

/-- Section 4: the boundaries of the predicates. -/
theorem test_env_predicates :
    isActive cfg { envE1 with level := ⟨0x38D1B717⟩ } = false ∧ isActive cfg { envE1 with level := ⟨0x38D1B718⟩ } = true ∧
    isActive cfg { envE1 with level := ⟨0x7FC00000⟩ } = false ∧
    isInAttack cfg { envE1 with target := ⟨0x40000000⟩ } = true ∧
    isInAttack cfg { envE1 with target := ⟨0x3F000000⟩ } = false := by decide

/-- Section 5, O1: the registers of the recompute branch that no configuration function enters. -/
theorem test_osc_recompute :
    ((oscNext cfg { Oscillator.powerOn with period := ⟨0x42C80000⟩ }).1.dc = ⟨0x3C257EB5⟩ ∧
      (oscNext cfg { Oscillator.powerOn with period := ⟨0x42C80000⟩ }).1.phaseMax = ⟨0x431B8243⟩) ∧
    ((oscNext cfg { Oscillator.powerOn with period := ⟨0x42C80000⟩ }).1.inc = ⟨0x40470D23⟩ ∧
      (oscNext cfg { Oscillator.powerOn with period := ⟨0x42C80000⟩ }).2 = ⟨0x3F7D6A05⟩) := by decide

/-- Section 5, O2 call 5: the reflection at the end of a ramp, from the registers of call 4. -/
theorem test_osc_reflect :
    (oscRecur { Oscillator.powerOn with
        phase := (F32.mk 0x40FB53D2).add ⟨0x40278D37⟩, phaseMax := ⟨0x40FB53D2⟩, inc := ⟨0x40278D37⟩ }).1.inc =
      ⟨0xC0278D37⟩ := by decide

/-- Section 5, O5: OSC.SQUARE from an oscillator that has not run. -/
theorem test_osc_square :
    (oscSquare cfg Oscillator.powerOn Oscillator.powerOn ⟨0x43000000⟩).phase = ⟨0x4345EB9C⟩ ∧
    (oscSquare cfg Oscillator.powerOn Oscillator.powerOn ⟨0x43000000⟩).inc = ⟨0x40490FDB⟩ := by decide

/-- Section 6, realisation A, exact vectors: the first two words of the impulse response at `g = 0.5`, `k = 0`. -/
theorem test_filter_ladder :
    (ladderStep ⟨0x3F000000⟩ ⟨0⟩ polesZero F32.one).2 = ⟨0x3D800000⟩ ∧
    (ladderStep ⟨0x3F000000⟩ ⟨0⟩ (ladderStep ⟨0x3F000000⟩ ⟨0⟩ polesZero F32.one).1 ⟨0⟩).2 = ⟨0x3E000000⟩ := by
  decide +kernel

/-- Section 6, realisation B, exact vector: the first two words of the impulse response. -/
theorem test_filter_biquad :
    (biquadStep ⟨0x3E800000⟩ F32.half ⟨0x3E800000⟩ F32.half.neg ⟨0x3E800000⟩ polesZero F32.one).2 = ⟨0x3D800000⟩ ∧
    (biquadStep ⟨0x3E800000⟩ F32.half ⟨0x3E800000⟩ F32.half.neg ⟨0x3E800000⟩
      (biquadStep ⟨0x3E800000⟩ F32.half ⟨0x3E800000⟩ F32.half.neg ⟨0x3E800000⟩ polesZero F32.one).1 ⟨0⟩).2 =
      ⟨0x3EA00000⟩ := by decide

/-- R163, R176: a user structure is silent from cleared poles, on either zero. -/
theorem test_filter_user_silent :
    (lpf4Step cfg (.user []) polesZero ⟨0x80000000⟩).1 = polesZero ∧
    (lpf4Step cfg (.user []) polesZero ⟨0⟩).2.isZero = true :=
  ⟨rfl, by
    change (F32.ofSignMag (Config.userStepRaw [] polesZero ⟨0⟩).2.sign 0).isZero = true
    cases (Config.userStepRaw [] polesZero ⟨0⟩).2.sign <;> decide⟩

/-- Section 6: the Q map. -/
theorem test_filter_q :
    (fltUpdate cfg ⟨0x472C4400⟩ (Filter.powerOn cfg) ⟨0x447A0000⟩ ⟨0x41700000⟩).res = ⟨0x3F000000⟩ ∧
    (fltUpdate cfg ⟨0x472C4400⟩ (Filter.powerOn cfg) ⟨0x447A0000⟩ ⟨0x42340000⟩).res = ⟨0x3F800000⟩ := by decide

/-- Section 7, V2: the glide step. -/
theorem test_voice_glide :
    (voiceUpdateLfo cfg ⟨0x472C4400⟩ { Voice.powerOn cfg with
      period := ⟨0x43480000⟩, target := ⟨0x42C80000⟩, glideRate := ⟨0x3E800000⟩ }).period = ⟨0x432F0000⟩ := by decide

/-- Section 7, V4: the pan position is clamped; note 36 pans hard left, so its right gain is `SIN(+0.0) = +0.0`. -/
theorem test_voice_pan :
    panPosition cfg 36 = ⟨0xBF800000⟩ ∧ panPosition cfg 127 = ⟨0x3F800000⟩ ∧ panPosition cfg 60 = ⟨0⟩ ∧
    (voiceUpdatePan cfg { Voice.powerOn cfg with note := 36 }).panRight = ⟨0⟩ := by decide

/-- Section 10.1, `(0, 0)` under T. -/
theorem test_calc_period : exec (.synCalcPeriod 0 0) armed = .next { armed with result := .f32 ⟨0x45800000⟩ } := by
  rfl

/-- Section 10.1: 5.99 doubled once; with `detune = 0.5` a period of 8.0 doubled once. -/
theorem test_double_period :
    doublePeriod cfg F32.one 300 ⟨0x40BFC888⟩ = ⟨0x413FC888⟩ ∧
    doublePeriod cfg F32.half 300 ⟨0x41000000⟩ = ⟨0x41800000⟩ := by decide

/-- Section 10.2. -/
theorem test_velocity_curve :
    velocityCurve cfg 1 = ⟨0x410E6668⟩ ∧ velocityCurve cfg 127 = ⟨0x4309EC8C⟩ ∧
    (F32.mk 0x3A800000).mul (velocityCurve cfg 100) = ⟨0x3DC72B03⟩ := by decide

/-- Section 10.4: all voices reset give voice 0; a quieter voice wins; every voice in attack gives 0. -/
theorem test_find_free :
    findFree cfg armed.voices = 0 ∧ findFree cfg (atLevel 0 ⟨0x3F000000⟩ armed).voices = 1 ∧
    findFree cfg (armed.mapVoices (fun v => { v with env := envAttack cfg v.env })).voices = 0 := by decide

/-- P3: SYN.SHIFTQ after notes 60 and 64, and SYN.NEXTQ for the queue `67, 64, 60`. -/
theorem test_queue :
    nextHas (exec .synShiftQ (hold 1 60 (hold 0 64 armedMono)))
      (fun t => (t.voice 0).note = 64 && (t.voice 1).note = 64 && (t.voice 2).note = 60) = true ∧
    nextHas (exec .synNextQ (hold 2 60 (hold 1 64 (hold 0 67 armedMono))))
      (fun t => t.result = .note 64 && (t.voice 1).note = 0 && (t.voice 2).note = 60) = true := by decide

/-- P6: a note-off under the pedal, and the pedal-up sweep. -/
theorem test_pedal :
    nextHas (exec (.midiNoteOff 60) { hold 0 60 armed with sustainPedal := true })
      (fun t => (t.voice 0).note = 0xFF) = true ∧
    nextHas (exec (.ccSustain 63) (hold 0 0xFF armed)) (fun t => (t.voice 0).note = 0) = true := by decide

/-- Section 9: the scalar controllers. -/
theorem test_controllers :
    nextHas (exec (.midiPressure 127) armed) (fun t => t.pressure = ⟨0x3FCE7382⟩) = true ∧
    nextHas (exec (.ccModWheel 127) armed) (fun t => t.modWheel = ⟨0x3DA52934⟩) = true ∧
    nextHas (exec (.ccFilterPos 64) armed) (fun t => t.filterCtl = ⟨0x3FA3D70A⟩) = true ∧
    nextHas (exec (.ccFilterNeg 0) armed) (fun t => t.filterCtl = ⟨0x80000000⟩) = true ∧
    nextHas (exec (.midiBend 0 64) armed) (fun t => t.pitchBend = ⟨0x3F800000⟩) = true := by decide

/-- Section 11: the sequence checks; P1: the ramp length of RESET. -/
theorem test_resources :
    exec (.render true 1) State.reset = .refused .notAllocated ∧
    exec (.render true 4) { State.reset with allocated := true } = .refused (.unwrittenParam .outputLevel) ∧
    exec (.alloc 0 ⟨0x7FC00000⟩) State.reset = .refused (.paramOutOfRange .sampleRate) ∧
    nextHas (exec .reset armed) (fun t => t.sm.len = 2205) = true := ⟨rfl, rfl, rfl, by decide⟩

/-- P1: the step of a 2205-sample ramp to 1.0, and the silent output of a block with no voice. -/
theorem test_smoother :
    (smSet ⟨⟨0⟩, ⟨0⟩, ⟨0⟩, 0, 2205⟩ F32.one).step = ⟨0x39EDC5B8⟩ ∧
    (smSet ⟨⟨0⟩, ⟨0⟩, ⟨0⟩, 0, 2205⟩ F32.one).count = 2205 ∧
    smNext ⟨⟨0⟩, F32.one, ⟨0x39EDC5B8⟩, 2, 2205⟩ = (⟨⟨0x39EDC5B8⟩, F32.one, ⟨0x39EDC5B8⟩, 1, 2205⟩, ⟨0x39EDC5B8⟩) := by
  decide

/-- Section 8: a one-sample stereo block with no voice writes `+0.0` and draws one noise word; an LFO tick reloads the
counter. -/
theorem test_render_silent :
    nextHas (exec (.render true 1) armed)
      (fun t => t.outL = [(0, ⟨0⟩)] && t.outR = [(0, ⟨0⟩)] && t.ng = 0xEEF79411 && t.lfoStep = 32) = true := by decide

/-- Section 8.4: SYN.SAFE. -/
theorem test_safe :
    safe cfg ⟨0x7FC00000⟩ = ⟨0⟩ ∧ safe cfg ⟨0x40000001⟩ = ⟨0⟩ ∧ safe cfg ⟨0x40000000⟩ = ⟨0x3F800000⟩ ∧
    safe cfg ⟨0xBF800001⟩ = ⟨0xBF800000⟩ ∧ safe cfg ⟨0x3F7FFFFF⟩ = ⟨0x3F7FFFFF⟩ ∧ safe cfg ⟨0x80000000⟩ = ⟨0x80000000⟩ := by
  decide

/-! ## Witnesses: for every obligation with hypotheses, a state and operands that meet them, clause by clause -/

theorem witness_NamedFunctionProperties :
    (F32.mk 0xBFC00000).isNaN = false ∧ (F32.mk 0xBFC00000).isFinite = true ∧ (F32.mk 0x7F7FFFFF).isFinite = true ∧
    (F32.mk 0x7F800000).isFinite = false ∧ (F32.mk 0x7FC00000).isFinite = false := by decide

/-- Finite operands whose sum, product and quotient are finite; and two whose sum and product overflow. -/
theorem witness_ArithmeticRoundsToNearestEven :
    ((F32.mk 0x3F800000).isFinite = true ∧ (F32.mk 0x40400000).isFinite = true ∧ (F32.mk 0x40400000).isZero = false ∧
      ((F32.mk 0x3F800000).add ⟨0x40400000⟩).isFinite = true ∧ ((F32.mk 0x3F800000).mul ⟨0x40400000⟩).isFinite = true ∧
      ((F32.mk 0x3F800000).div ⟨0x40400000⟩).isFinite = true) ∧
    ((F32.mk 0x7F7FFFFF).isFinite = true ∧ ((F32.mk 0x7F7FFFFF).add ⟨0x7F7FFFFF⟩).isInf = true ∧
      ((F32.mk 0x7F7FFFFF).mul ⟨0x7F7FFFFF⟩).isInf = true ∧ ((F32.mk 0x7F7FFFFF).div ⟨0x00000001⟩).isInf = true) := by
  decide +kernel

theorem witness_ArithmeticSpecialValues :
    (F32.mk 0x7F800001).isNaN = true ∧ (F32.mk 0xFF800000).isInf = true ∧ (F32.mk 0x7F800000).isInf = true ∧
    (F32.mk 0x80000000).isZero = true ∧ (F32.mk 0x00000001).isFinite = true ∧ (F32.mk 0x00000001).isZero = false ∧
    (F32.mk 0x80000000).isFinite = true ∧ (F32.mk 0x7F7FFFFF).isFinite = true ∧
    (F32.mk 0x00000001).units + (F32.mk 0x80000001).units = 0 ∧
    (F32.mk 0xFF800000).sign = (F32.mk 0xFF800001).sign ∧ (16777215 : Int).natAbs < 2 ^ 24 := by decide

/-- A configuration whose output buffers hold two words each (R8). -/
def smallBuffers : Config := { cfg with outCapacity := 2 }

/-- A block of two samples fits these buffers, one of three does not (R86; log 23). -/
theorem test_render_capacity :
    (∃ t, execIn smallBuffers (.render false 2) armed = .next t) ∧
    execIn smallBuffers (.render false 3) armed = .refused .blockBeyondCapacity := ⟨⟨_, rfl⟩, rfl⟩

/-- A state of the invariant with a voice held, a word in the left buffer and a RENDER at the port. -/
def midRun : State :=
  { hold 3 60 armed with outL := [(2, ⟨0xBF800000⟩)], lfoStep := 32, port := [.command 0x06800001 0] }

theorem witness_StepKeepsInvariant_anyConfiguration :
    Memory.wfIn smallBuffers armed.outL ∧ Memory.wfIn smallBuffers armed.outR ∧
    ∃ t, stepIn smallBuffers { armed with port := [.command 0x06800002 0] } = .next t :=
  ⟨memory_nil_wf _, memory_nil_wf _, ⟨_, rfl⟩⟩

theorem witness_StepKeepsInvariant : midRun.Inv ∧ ∃ t, step midRun = .next t := by
  refine ⟨⟨⟨?_, ?_⟩, memory_nil_wf cfg, ?_, ?_, ?_, by decide, by decide, by decide, by decide⟩, ⟨_, rfl⟩⟩
  · simp [midRun]
  · intro a ha; simp [midRun] at ha; subst ha; decide
  · intro e he; simp [midRun] at he; subst he; decide
  · intro e he; exact absurd (show e ∈ ([] : OutBuf) from he) (by simp)
  · intro v; revert v; decide

theorem witness_DecodeEncodeRoundTrip :
    (Instr.pset 255 5).wellFormed = true ∧ (Instr.ccOther 0 127).wellFormed = true ∧
    (Instr.oscSquare 7 .two 7 .two ⟨0xFFFFFFFF⟩).wellFormed = true ∧ (Instr.synRestartMono 127 0xFF).wellFormed = true ∧
    (Instr.ccModWheel 5).wellFormedIn otherControllers = true ∧ (Instr.ccOther 1 5).wellFormedIn otherControllers = true := by
  decide

theorem witness_DecodingIsTotal :
    (0x10 : Nat) ∈ [0x10, 0x11] ∧ (0x6D : Nat) ∈ [0x6A, 0x6B, 0x6C, 0x6D] ∧
    (0x6E : Nat) ∉ [0x10, 0x11, 0x20, 0x21, 0x22, 0x23, 0x24, 0x25, 0x30, 0x31, 0x32, 0x40, 0x41, 0x42] ++
          [0x50, 0x51, 0x52, 0x53, 0x54, 0x60, 0x61, 0x62, 0x63, 0x64, 0x65, 0x66, 0x67, 0x68, 0x69] ++
          [0x6A, 0x6B, 0x6C, 0x6D] := by decide

theorem witness_IgnoredBitsAreIgnored :
    ((0x06800004 : Word).extractLsb' 24 8 ≠ 2 ∧ (0x06800004 : Word).extractLsb' 24 8 ≠ 4) ∧
    (0x00123456 : Word).extractLsb' 24 8 = 0 ∧ (0x01FFFFFF : Word).extractLsb' 24 8 = 1 ∧
    (0x03FFFFFF : Word).extractLsb' 24 8 = 3 ∧ 7 ≤ ((0x07000001 : Word).extractLsb' 24 8).toNat ∧
    (0x04FFFF1A : Word).extractLsb' 24 8 = 4 ∧ (0x059FBCE4 : Word).extractLsb' 24 8 = 5 ∧
    ((0x04000008 : Word).extractLsb' 24 8 = 4 ∧ (0x04000008 : Word).extractLsb' 0 8 = 8) ∧
    (0x04000010 : Word).extractLsb' 0 8 = 16 ∧ (0x0400000C : Word).extractLsb' 0 8 = 12 := by decide

theorem witness_StepExecutesOldestWord :
    (∃ w rest i, midRun.port = w :: rest ∧ decode w = .ok i) ∧ State.reset.port = [] ∧
    (∃ w rest code, ({ armed with port := [.select 0x6E ⟨0, 0, 0⟩] } : State).port = w :: rest ∧
      decode w = .error (.unassignedSelectCode code)) ∧
    (∃ w rest i, midRun.port = w :: rest ∧ decodeIn otherControllers w = .ok i) :=
  ⟨⟨_, _, _, rfl, rfl⟩, rfl, ⟨_, _, _, rfl, rfl⟩, ⟨_, _, _, rfl, rfl⟩⟩

theorem witness_OnlyPreconditionsRefuse : ∃ r, exec (.render true 0) State.reset = .refused r := ⟨_, rfl⟩

theorem witness_ParamAndBufferWriters : ∃ t, exec .nop armed = .next t ∧ isPset .nop = false ∧ ∀ b n, Instr.nop ≠ .render b n :=
  ⟨_, rfl, rfl, fun _ _ h => by cases h⟩

/-- NOP is none of the instructions any clause excepts. -/
theorem witness_SynthRegisterWriters : ∃ t, exec .nop armed = .next t ∧ (∀ b r, Instr.nop ≠ .alloc b r) ∧
    Instr.nop ≠ .dealloc ∧ Instr.nop ≠ .reset ∧ Instr.nop ≠ .synLfoStep ∧ (∀ b n, Instr.nop ≠ .render b n) ∧
    (∀ n v, Instr.nop ≠ .midiNoteOn n v) ∧ (∀ a b c, Instr.nop ≠ .midi a b c) ∧ (∀ n v, Instr.nop ≠ .synNoteOn n v) ∧
    (∀ v n w, Instr.nop ≠ .synStartVoice v n w) ∧ (∀ a b, Instr.nop ≠ .midiBend a b) ∧
    (∀ a, Instr.nop ≠ .midiPressure a) ∧ (∀ a, Instr.nop ≠ .ccModWheel a) ∧ (∀ a b, Instr.nop ≠ .midiCc a b) ∧
    (∀ a, Instr.nop ≠ .ccFilterPos a) ∧ (∀ a, Instr.nop ≠ .ccFilterNeg a) ∧ (∀ a, Instr.nop ≠ .ccSustain a) ∧
    (∀ a, Instr.nop ≠ .ccChannelMode a) ∧ Instr.nop ≠ .ngReset ∧ Instr.nop ≠ .ngNext ∧
    (∀ x, Instr.nop ≠ .smSet x) ∧ Instr.nop ≠ .smNext :=
  ⟨_, rfl, by simp⟩

theorem witness_StorageLaws : (0 : Nat) ≠ 1 ∧ Memory.wf [] ∧ (8388606 : Nat) < 8388607 ∧
    (∀ k, outWord? [] k = outWord? [] k) ∧ Memory.wfIn smallBuffers [] ∧ 1 < smallBuffers.outCapacity ∧
    ¬2 < smallBuffers.outCapacity :=
  ⟨by decide, memory_nil_wf cfg, by decide, fun _ => rfl, memory_nil_wf smallBuffers, by decide, by decide⟩

theorem witness_NoEffectEncodings :
    27 ≤ (27#8).toNat ∧ ((0x00FFFFFF : Word).extractLsb' 24 8).toNat = 0 ∧
    7 ≤ ((0x07000000 : Word).extractLsb' 24 8).toNat ∧
    ((0x0400001B : Word).extractLsb' 24 8 = 4 ∧ 27 ≤ ((0x0400001B : Word).extractLsb' 0 8).toNat) ∧
    ((0x05700102 : Word).extractLsb' 24 8 = 5 ∧ ((0x05700102 : Word).extractLsb' 20 4).toNat < 8) ∧
    (0x05A03C0A : Word).extractLsb' 20 4 = 0xA ∧ (0x05C00500 : Word).extractLsb' 20 4 = 0xC ∧
    (0x05F00102 : Word).extractLsb' 20 4 = 0xF ∧
    ((0x05B07764 : Word).extractLsb' 20 4 = 0xB ∧ isOtherController ((0x05B07764 : Word).extractLsb' 8 7) = true) := by
  decide

theorem witness_ResetCommand : sampleRateInRange cfg armed.sampleRate = true := by decide

/-- A legal rate, the one where `OUT_RAMP_SECONDS * rate` is just 2^31, zero, and infinity. -/
theorem witness_AllocAndDealloc :
    ((F32.mk 0x472C4400).isFinite = true ∧ (F32.mk 0x472C4400).gt ⟨0⟩ = true ∧
      ((F32.mk 0x3D4CCCCD).mul ⟨0x472C4400⟩).lt ⟨0x4F000000⟩ = true) ∧
    (F32.mk 0x00000000).gt ⟨0⟩ = false ∧ (F32.mk 0x7F800000).isFinite = false ∧
    ((F32.mk 0x3D4CCCCD).mul ⟨0x51200000⟩).lt ⟨0x4F000000⟩ = false := by decide

theorem witness_MidiDispatch :
    (100#7) ≠ 0 ∧ ((0x8F#8).extractLsb' 4 4).toNat = 0x8 ∧ ((0x90#8).extractLsb' 4 4).toNat = 0x9 ∧
    ((0xB0#8).extractLsb' 4 4).toNat = 0xB ∧ ((0xD0#8).extractLsb' 4 4).toNat = 0xD ∧
    ((0xE0#8).extractLsb' 4 4).toNat = 0xE ∧ ((0x7F#8).extractLsb' 4 4).toNat < 0x8 ∧
    ((0xA0#8).extractLsb' 4 4).toNat = 0xA ∧ ((0xC0#8).extractLsb' 4 4).toNat = 0xC ∧
    ((0xF0#8).extractLsb' 4 4).toNat = 0xF := by decide

theorem witness_ControlChangeDispatch :
    (1#7) = 1 ∧ (64#7) = 64 ∧ (74#7) = 74 ∧ (75#7) = 75 ∧ 120 ≤ (120#7).toNat ∧ 120 ≤ (127#7).toNat ∧
    isOtherController 119 = true ∧ isOtherController 0 = true ∧ isOtherController 120 = false ∧
    (2#7).toNat = otherControllers.ccModwheel ∧ isOtherControllerIn otherControllers 1 = true := by decide

/-- The mask and the bias in force share no bit. -/
theorem witness_NoiseGenerator : cfg.noiseMask &&& cfg.noiseBias = 0 := by decide

theorem witness_SustainPedal : 64 ≤ (64#7).toNat ∧ (63#7).toNat < 64 ∧ ((hold 0 0xFF armed).voice 0).note.toInt = -1 := by
  decide

/-- An envelope just attacked leaves the attack at once under E1, and does not under a slower multiplier. -/
theorem witness_EnvelopeOperations :
    ((envNextLevel (envAttack cfg envE1)).add (envAttack cfg envE1).target).gt ⟨0x40400000⟩ = true ∧
    ((envNextLevel envE1).add envE1.target).gt ⟨0x40400000⟩ = false := by decide

theorem witness_EnvelopeLevelNeverNegative :
    (envAttack cfg envE1).level.ge ⟨0⟩ = true ∧ (envAttack cfg envE1).level.le ⟨0x40000000⟩ = true ∧
    (envAttack cfg envE1).target.ge ⟨0⟩ = true ∧ (envAttack cfg envE1).target.le ⟨0x40000000⟩ = true ∧
    (envAttack cfg envE1).multiplier.ge ⟨0⟩ = true ∧ (envAttack cfg envE1).multiplier.lt ⟨0x3F800000⟩ = true ∧
    (F32.mk 0x3F7FFFFF).lt ⟨0x3F800000⟩ = true ∧ (F32.mk 0x40000000).le ⟨0x40000000⟩ = true ∧
    (envAttack cfg envE1).inRange = true ∧ (envE1.level.add ⟨0x3951B717⟩).le ⟨0x40000000⟩ = true := by decide

theorem witness_OscillatorNext :
    (Oscillator.powerOn.phase.add Oscillator.powerOn.inc).le ⟨0x3F490FDB⟩ = true ∧
    ((F32.mk 0x3F490FDB).add ⟨0⟩).le ⟨0x3F490FDB⟩ = true ∧ ((F32.mk 0x3F490FDC).add ⟨0⟩).le ⟨0x3F490FDB⟩ = false := by
  decide

/-- A filter of each kind of coefficient registers; cleared poles on a zero and on another input. -/
theorem witness_FilterRender :
    (∃ g k, (armed.voice 0).filter.coef = .ladder g k) ∧
    (∃ b0 b1 b2 a1 a2, (Coef.biquad ⟨0⟩ ⟨0⟩ ⟨0⟩ ⟨0⟩ ⟨0⟩) = .biquad b0 b1 b2 a1 a2) ∧
    (∃ regs, (Coef.user []) = .user regs) ∧
    ((armed.voice 0).filter.poles = ⟨⟨0⟩, ⟨0⟩, ⟨0⟩, ⟨0⟩⟩ ∧ (F32.mk 0x80000000).isZero = true ∧
      (F32.mk 0x00000001).isZero = false) := ⟨⟨_, _, rfl⟩, ⟨_, _, _, _, _, rfl⟩, ⟨_, rfl⟩, rfl, rfl, rfl⟩

theorem witness_FilterSilent :
    (F32.mk 0x3E07FA80).isFinite = true ∧ (F32.mk 0x40000000).isFinite = true ∧ (F32.mk 0x80000000).isZero = true := by
  decide

theorem witness_FindFree :
    ((armed.voice 5).env.level.lt ⟨0x42C80000⟩ = true ∧ (armed.voice 5).env.target.ge ⟨0x40000000⟩ = false) ∧
    ∀ i, ¬(((armed.mapVoices (fun v => { v with env := envAttack cfg v.env })).voice i).env.level.lt ⟨0x42C80000⟩ = true ∧
      ((armed.mapVoices (fun v => { v with env := envAttack cfg v.env })).voice i).env.target.ge ⟨0x40000000⟩ = false) := by
  decide

/-- The first line of SYN.CALCPERIOD for voice 0 and note 0 under T: `4096.0 * EXP(-0.0)`. -/
theorem witness_CalcPeriodEnds :
    armed.p.tune.written = true ∧ armed.p.detune.written = true ∧ tuneInRange armed.p.tune.value = true ∧
    detuneInRange armed.p.detune.value = true ∧ (basePeriod cfg armed.p 0 0).gt ⟨0⟩ = true := by decide

theorem witness_StartVoiceComposition :
    armed.p.ready cfg = true ∧ (armed.p.tune.value.mul (cfg.exp ((F32.mk 0xBD6C9820).mul
      ((F32.ofInt (0#7).toNat).add ((F32.mk 0x3B03126F).mul (F32.ofInt (0 : VoiceIx).val)))))).gt ⟨0⟩ = true := by decide

theorem witness_StartedPeriodsNotShort : ∃ t, exec (.synStartVoice 0 0 100) armed = .next t := ⟨_, rfl⟩

theorem witness_RestartMonoComposition :
    armedMono.p.ready cfg = true ∧ (armedMono.p.tune.value.mul (cfg.exp ((F32.mk 0xBD6C9820).mul
      ((F32.ofInt (0#7).toNat).add ((F32.mk 0x3B03126F).mul (F32.ofInt 0)))))).gt ⟨0⟩ = true := by decide

/-- Slot 1 and slot 7 as the lowest that holds a note, and an empty queue. -/
theorem witness_QueueOperations :
    (1 ≤ (1 : VoiceIx).val ∧ 0 < ((hold 1 1 armed).voice 1).note.toInt) ∧
    (0 < ((hold 7 127 armed).voice 7).note.toInt ∧
      ∀ w : VoiceIx, 1 ≤ w.val → w < 7 → ¬0 < ((hold 7 127 armed).voice w).note.toInt) ∧
    (∀ v : VoiceIx, 1 ≤ v.val → ¬0 < ((hold 0 60 armed).voice v).note.toInt) := by decide

theorem witness_HeldNotesAreAStack :
    0 < ((hold 0 1 armedMono).voice 0).note.toInt ∧ 0 < ((hold 0 127 armedMono).voice 0).note.toInt := by decide

theorem witness_NoteOnComposition :
    (armedMono.p.ignoreVelocity.written = true ∧ armedMono.p.numVoices.written = true ∧
      armedMono.p.numVoices.value = 1 ∧ 0 < ((hold 0 60 armedMono).voice 0).note.toInt ∧
      ¬0 < (armedMono.voice 0).note.toInt) ∧
    (armed.p.ignoreVelocity.written = true ∧ armed.p.numVoices.written = true ∧ armed.p.numVoices.value ≠ 1) := by decide

theorem witness_NoteOnCompletes :
    armed.p.ready cfg = true ∧ (armed.p.tune.value.mul (cfg.exp ((F32.mk 0xBD6C9820).mul
      ((F32.ofInt (0#7).toNat).add
        ((F32.mk 0x3B03126F).mul (F32.ofInt (findFree cfg armed.voices).val)))))).gt ⟨0⟩ = true := by decide +kernel

/-- A poly note-off, a mono note-off with an empty queue, and a mono note-off that restores note 64. -/
theorem witness_NoteOff :
    (armed.p.numVoices.written = true ∧ armed.p.numVoices.value ≠ 1) ∧
    (∀ v : VoiceIx, 1 ≤ v.val → ¬0 < ((hold 0 60 armedMono).voice v).note.toInt) ∧
    (armedMono.p.numVoices.written = true ∧ armedMono.p.numVoices.value = 1 ∧
      ((hold 1 64 (hold 0 67 armedMono)).voice 0).note = (67#7).setWidth 8 ∧
      ∃ a, exec .synNextQ (hold 1 64 (hold 0 67 armedMono)) = .next a ∧ a.result = .note ((64#7).setWidth 8)) :=
  ⟨by decide, by decide, by decide, by decide, by decide, ⟨_, rfl, rfl⟩⟩

theorem witness_LfoStep : 1 < ({ armed with lfoStep := 2 } : State).lfoStep ∧ ({ armed with lfoStep := 1 } : State).lfoStep ≤ 1 ∧
    armed.p.ready cfg = true := by decide

theorem witness_UpdatePeriod : armed.p.detune.written = true ∧ detuneInRange armed.p.detune.value = true := by decide

/-- A target of `-0.0` equals `+0.0`; a ramp length of 0 and of 1; counters 0, 1 and 2. -/
theorem witness_Smoother :
    (F32.mk 0x80000000).feq armed.sm.tgt = true ∧ (F32.mk 0x3F800000).feq armed.sm.tgt = false ∧ armed.sm.len = 0 ∧
    0 < (Smoother.mk ⟨0⟩ ⟨0⟩ ⟨0⟩ 0 1).len ∧ armed.sm.count = 0 ∧ (Smoother.mk ⟨0⟩ ⟨0⟩ ⟨0⟩ 1 1).count = 0 + 1 ∧
    1 < (Smoother.mk ⟨0⟩ ⟨0⟩ ⟨0⟩ 2 2).count := by decide

/-- A value on each side of every bound of SYN.SAFE. -/
theorem witness_SafeSample :
    (F32.mk 0x7FC00000).isNaN = true ∧ (F32.mk 0xFF800000).isInf = true ∧ (F32.mk 0xC0000001).lt ⟨0xC0000000⟩ = true ∧
    (F32.mk 0x40000001).gt ⟨0x40000000⟩ = true ∧
    ((F32.mk 0xC0000000).ge ⟨0xC0000000⟩ = true ∧ (F32.mk 0xC0000000).lt ⟨0xBF800000⟩ = true) ∧
    ((F32.mk 0x3F800001).le ⟨0x40000000⟩ = true ∧ (F32.mk 0x3F800001).gt ⟨0x3F800000⟩ = true) ∧
    ((F32.mk 0xBF800000).ge ⟨0xBF800000⟩ = true ∧ (F32.mk 0xBF800000).le ⟨0x3F800000⟩ = true) := by decide

/-- A state not allocated; one with the noise mix unwritten, one with it infinite, and one with every parameter in
range; a voice active, and a tick just within a block and just beyond it. -/
theorem witness_RenderRefusals :
    State.reset.allocated = false ∧ armed.allocated = true ∧ 0 < (1#23).toNat ∧
    ({ paramsT with noiseMix := ⟨⟨0⟩, false⟩ } : Params).written .noiseMix = false ∧
    (({ paramsT with noiseMix := ⟨⟨0x7F800000⟩, true⟩ } : Params).inRange cfg .noiseMix = false ∧
      ∀ id, ({ paramsT with noiseMix := ⟨⟨0x7F800000⟩, true⟩ } : Params).written id = true) ∧
    (∀ id, armed.p.written id = true ∧ armed.p.inRange cfg id = true) ∧
    ((atLevel 7 ⟨0x3F800000⟩ armed).voice 7).env.level.gt ⟨0x38D1B717⟩ = true ∧
    ({ armed with lfoStep := 1 } : State).lfoStep ≤ (1#23).toNat ∧
    ¬({ armed with lfoStep := 2 } : State).lfoStep ≤ (1#23).toNat ∧
    armed.p.ready smallBuffers = true ∧ smallBuffers.outCapacity < (3#23).toNat ∧ (2#23).toNat ≤ smallBuffers.outCapacity := by
  refine ⟨by decide, by decide, by decide, by decide, ⟨by decide, fun id => by cases id <;> rfl⟩, fun id => ?_, by decide,
    by decide, by decide, by decide, by decide, by decide⟩
  cases id <;> decide

/-- For each instruction a state on each side of its preconditions. A first line of zero needs an EXP that gives `+0.0`
(R9, EXP_pos), so it is shown under a configuration that has one. -/
theorem witness_ParameterPreconditions :
    (State.reset.p.written .tune = false ∧ State.reset.p.ignoreVelocity.written = false ∧
      State.reset.p.numVoices.written = false ∧ State.reset.lfoStep ≤ 1 ∧ State.reset.p.written .detune = false) ∧
    ((∀ id, ({ paramsT with tune := ⟨⟨0x00000001⟩, true⟩ } : Params).written id = true) ∧
      ({ paramsT with tune := ⟨⟨0x00000001⟩, true⟩ } : Params).inRange cfg .tune = false) ∧
    ((∀ id, ({ paramsT with lfoInc := ⟨⟨0x40C90FDB⟩, true⟩ } : Params).written id = true) ∧
      ({ paramsT with lfoInc := ⟨⟨0x40C90FDB⟩, true⟩ } : Params).inRange cfg .lfoInc = false) ∧
    (∀ id, armed.p.written id = true ∧ armed.p.inRange cfg id = true) ∧
    (basePeriod cfg armed.p 0 0).gt ⟨0⟩ = true ∧ (F32.mk 0).gt ⟨0⟩ = false ∧
    ({ armed with lastNote := 60 } : State).lastNote ≠ 0 ∧ 0 < (1#8).toInt ∧ ¬0 < (0xFF#8).toInt ∧
    (armed.p.vibrato.written = true ∧ armed.p.vibrato.value.feq ⟨0⟩ = true) ∧ (1#7) ≠ 0 ∧
    sampleRateInRange cfg ({ armed with sampleRate := ⟨0⟩ } : State).sampleRate = false ∧
    (cfg.minPeriod.gt ⟨0⟩ = true ∧ basePeriod { cfg with exp := fun _ => ⟨0⟩ } armed.p 0 60 = ⟨0⟩) := by
  refine ⟨by decide, ⟨fun id => by cases id <;> rfl, by decide⟩, ⟨fun id => by cases id <;> rfl, by decide⟩, fun id => ?_,
    by decide, by decide, by decide, by decide, by decide, by decide, by decide, by decide, by decide⟩
  cases id <;> decide

theorem witness_SampleStepOrder : armed.p.ready cfg = true := by decide

/-- `armed` with voice 2 active, its level just above SILENCE and falling by half at each call. -/
def fading : State :=
  armed.setVoice 2 { armed.voice 2 with
    env := { (armed.voice 2).env with level := ⟨0x38D1B718⟩, multiplier := ⟨0x3F000000⟩ } }

/-- A block with an active voice that goes inactive, and words inside and outside a block of one. -/
theorem witness_RenderComposition :
    (fading.allocated = true ∧ fading.p.ready cfg = true) ∧ (fading.voice 2).env.level.gt ⟨0x38D1B717⟩ = true ∧
    (fading.voice 1).env.level.gt ⟨0x38D1B717⟩ = false ∧ 0 < (1#23).toNat ∧ (1#23).toNat ≤ 1 := by decide

theorem witness_RenderBlockIsSafe :
    (fading.allocated = true ∧ fading.p.ready cfg = true) ∧ (8388606 : Nat) < (8388607#23).toNat := by decide

theorem witness_RenderZero : (fading.allocated = true ∧ fading.p.ready cfg = true) := by decide

theorem witness_RenderSilence :
    armed.allocated = true ∧ armed.p.ready cfg = true ∧ (∀ v, (armed.voice v).env.level.gt ⟨0x38D1B717⟩ = false) ∧
    0 < (1#23).toNat := by decide

/-- What a test says of the next state holds of some next state. -/
theorem exists_of_nextHas {o : Host.Outcome State Fault Refusal} {p : State → Bool} (h : nextHas o p = true) :
    ∃ t, o = .next t ∧ p t = true := by
  cases o with
  | next t => exact ⟨t, rfl, h⟩
  | fault f => cases f
  | refused r => simp [nextHas] at h

/-- In a block of one sample voice 1 of `fading` was inactive, and voice 2 goes inactive. -/
theorem witness_EndOfBlockSweep :
    (∃ t, exec (.render true 1) fading = .next t ∧ !(t.voice 2).env.level.gt ⟨0x38D1B717⟩) ∧
    (fading.voice 1).env.level.gt ⟨0x38D1B717⟩ = false ∧ (fading.voice 2).env.level.gt ⟨0x38D1B717⟩ = true :=
  ⟨exists_of_nextHas (by decide +kernel), by decide, by decide⟩

end Sys2Proof.Tests
end

section
/-! SUPPORT and PROOFS. The configuration in force and the binary32 arithmetic (spec 00_scope.md R7 to R12): the classes
of values, FLOOR and the free functions, rounding of signed quotients, and each operation on each class of operands. -/

namespace Sys2Proof
open Machine

/-! ## Classes of values -/

theorem F32.isInf_iff {x : F32} : x.isInf = true ↔ x.mag = F32.infMag := by simp [F32.isInf]

theorem F32.isZero_iff {x : F32} : x.isZero = true ↔ x.mag = 0 := by simp [F32.isZero]

theorem F32.not_isNaN_of_isInf {x : F32} (h : x.isInf = true) : x.isNaN = false := by
  simp [F32.isNaN, F32.isInf_iff.1 h]

theorem F32.not_isZero_of_isInf {x : F32} (h : x.isInf = true) : x.isZero = false := by
  simp [F32.isZero, F32.isInf_iff.1 h, F32.infMag_eq]

theorem F32.isFinite_of_isZero {x : F32} (h : x.isZero = true) : x.isFinite = true := by
  simp [F32.isFinite, F32.isZero_iff.1 h, F32.infMag_eq]

@[simp] theorem F32.isNaN_neg (x : F32) : x.neg.isNaN = x.isNaN := by simp [F32.isNaN]

@[simp] theorem F32.isInf_neg (x : F32) : x.neg.isInf = x.isInf := by simp [F32.isInf]

@[simp] theorem F32.isInf_ofSignMag_infMag (s : Bool) : (F32.ofSignMag s F32.infMag).isInf = true := by
  rw [F32.isInf_iff, F32.mag_ofSignMag s (by decide)]

@[simp] theorem F32.sign_ofSignMag_infMag (s : Bool) : (F32.ofSignMag s F32.infMag).sign = s :=
  F32.sign_ofSignMag s (by decide)

@[simp] theorem F32.isZero_ofSignMag_zero (s : Bool) : (F32.ofSignMag s 0).isZero = true := by
  rw [F32.isZero_iff, F32.mag_ofSignMag s (by decide)]

@[simp] theorem F32.sign_ofSignMag_zero (s : Bool) : (F32.ofSignMag s 0).sign = s :=
  F32.sign_ofSignMag s (by decide)

@[simp] theorem F32.isFinite_neg (x : F32) : x.neg.isFinite = x.isFinite := by simp [F32.isFinite]

@[simp] theorem F32.isZero_neg (x : F32) : x.neg.isZero = x.isZero := by simp [F32.isZero]

theorem F32.units_of_sign {x : F32} (h : x.sign = true) : x.units = -(x.absUnits : Int) := if_pos h

theorem F32.units_of_not_sign {x : F32} (h : x.sign = false) : x.units = x.absUnits := by simp [F32.units, h]

theorem F32.absUnits_eq_zero_iff {x : F32} : x.absUnits = 0 ↔ x.isZero = true := by
  rw [F32.isZero, beq_iff_eq]
  exact F32.unitsOfMag_inj (a := x.mag) (b := 0)

theorem F32.absUnits_of_isZero {x : F32} (h : x.isZero = true) : x.absUnits = 0 := F32.absUnits_eq_zero_iff.2 h

theorem F32.units_of_isZero {x : F32} (h : x.isZero = true) : x.units = 0 := by
  simp [F32.units, F32.absUnits_of_isZero h]

theorem F32.place_of_sign {x : F32} (h : x.sign = true) : x.place = -(x.mag : Int) := if_pos h

theorem F32.natAbs_place (x : F32) : x.place.natAbs = x.mag := by
  unfold F32.place; split <;> simp

theorem F32.place_neg (x : F32) : x.neg.place = -x.place := by
  unfold F32.place
  rw [F32.sign_neg, F32.mag_neg]
  cases x.sign <;> simp

/-! ## Configuration -/

/-- Settles O1: each parameter of R7 and R8 is a field of `cfg`, and holds its value by definition. -/
theorem configurationDefaults : Obligations.ConfigurationDefaults := by
  unfold Obligations.ConfigurationDefaults
  refine ⟨fun _ => rfl, ?_⟩
  decide

/-! ## FLOOR -/

/-- From 2^23 on every value is integral: the units are a whole multiple of 2^149. -/
theorem F32.dvd_unitsOfMag {m : Nat} (h : 0x4B000000 ≤ m) : 2 ^ 149 ∣ F32.unitsOfMag m := by
  have hexp : m / 2 ^ 23 - 1 = 149 + (m / 2 ^ 23 - 150) := by omega
  rw [F32.unitsOfMag, if_neg (by omega), hexp, pow_add]
  exact ((Nat.dvd_refl _).mul_right _).mul_left _

/-- Below 2^23 the units are below 2^23 * 2^149. -/
theorem F32.unitsOfMag_lt_of_mag_lt {m : Nat} (h : m < 0x4B000000) : F32.unitsOfMag m < 2 ^ 23 * 2 ^ 149 :=
  calc F32.unitsOfMag m < F32.unitsOfMag 0x4B000000 := F32.unitsOfMag_lt_iff.2 h
    _ = 2 ^ 23 * 2 ^ 149 := by decide

/-- `r` is the integral value not above `x` and less than one below it (R9); 1.0 is 2^149 units. -/
def F32.IsFloor (x r : F32) : Prop :=
  r.isFinite = true ∧ ∃ n : Int, r.units = n * 2 ^ 149 ∧ r.units ≤ x.units ∧ x.units < r.units + 2 ^ 149

/-- A finite integral value is its own floor. -/
theorem F32.isFloor_self {x : F32} (hx : x.isFinite = true) (hint : (2 ^ 149 : Int) ∣ x.units) : F32.IsFloor x x := by
  obtain ⟨n, hn⟩ := hint
  exact ⟨hx, n, by rw [hn, mul_comm], le_rfl, by omega⟩

/-- A negative operand of magnitude below 2^23 is rounded away from zero. -/
theorem F32.isFloor_of_sign {x : F32} (hs : x.sign = true) (hm : x.mag < 0x4B000000) :
    F32.IsFloor x (F32.ofNat ((x.absUnits + (2 ^ 149 - 1)) / 2 ^ 149)).neg := by
  have hlt : x.absUnits < 2 ^ 23 * 2 ^ 149 := F32.unitsOfMag_lt_of_mag_lt hm
  have hx := F32.units_of_sign hs
  generalize hn : (x.absUnits + (2 ^ 149 - 1)) / 2 ^ 149 = n
  obtain ⟨hu, hf⟩ := F32.units_ofInt (n := (n : Int)) (by omega)
  have hr : (F32.ofNat n).neg.units = -(n : Int) * 2 ^ 149 := by rw [F32.units_neg, F32.ofNat, hu, neg_mul]
  exact ⟨by rwa [F32.isFinite_neg], -n, hr, by omega, by omega⟩

/-- A positive operand of magnitude below 2^23 is truncated. -/
theorem F32.isFloor_of_not_sign {x : F32} (hs : x.sign = false) (hm : x.mag < 0x4B000000) :
    F32.IsFloor x (F32.ofNat (x.absUnits / 2 ^ 149)) := by
  have hlt : x.absUnits < 2 ^ 23 * 2 ^ 149 := F32.unitsOfMag_lt_of_mag_lt hm
  have hx := F32.units_of_not_sign hs
  generalize hn : x.absUnits / 2 ^ 149 = n
  obtain ⟨hu, hf⟩ := F32.units_ofInt (n := (n : Int)) (by omega)
  have hr : (F32.ofNat n).units = (n : Int) * 2 ^ 149 := hu
  exact ⟨hf, n, hr, by omega, by omega⟩

theorem F32.isFloor_floor {x : F32} (hx : x.isFinite = true) : F32.IsFloor x x.floor := by
  unfold F32.floor
  by_cases hbig : 0x4B000000 ≤ x.mag
  · rw [if_pos (by simp [hbig])]
    have hdvd : (2 ^ 149 : Int) ∣ x.absUnits := by exact_mod_cast F32.dvd_unitsOfMag hbig
    refine F32.isFloor_self hx ?_
    unfold F32.units
    split
    · exact hdvd.neg_right
    · exact hdvd
  · by_cases hz : x.isZero = true
    · rw [if_pos (by simp [hz])]
      exact F32.isFloor_self hx (by simp [F32.units_of_isZero hz])
    · rw [if_neg (by simp [hbig, hz])]
      by_cases hs : x.sign = true
      · rw [if_pos hs]
        exact F32.isFloor_of_sign hs (by omega)
      · rw [if_neg hs]
        exact F32.isFloor_of_not_sign (by simpa using hs) (by omega)

theorem F32.floor_of_not_isFinite {x : F32} (h : x.isFinite = false) : x.floor = x := by
  have hm : F32.infMag ≤ x.mag := by simpa [F32.isFinite] using h
  rw [F32.infMag_eq] at hm
  rw [F32.floor, if_pos (by simp; omega)]

/-! ## The free functions of R9 -/

/-- `SIN_odd` (R9). -/
theorem freeSin_neg (x : F32) : freeSin x.neg = (freeSin x).neg := by
  unfold freeSin
  rw [F32.isZero_neg]
  by_cases hz : x.isZero = true
  · simp [hz]
  · by_cases hs : x.sign = true <;> simp [hz, hs]

/-- `EXP_pos` (R9). -/
theorem freeExp_pos {x : F32} (h : x.isNaN = false) : (freeExp x).gt F32.zero = true ∨ freeExp x = F32.zero := by
  unfold freeExp
  by_cases hz : x.isZero = true
  · rw [if_pos hz]
    exact .inl (by decide)
  · by_cases hp : (Config.expRaw x).gt F32.zero = true
    · exact .inl (by simp [hz, hp])
    · exact .inr (by simp [hz, h, hp])

theorem freePow_of_isZero (a : F32) {b : F32} (h : b.isZero = true) : freePow a b = F32.one := if_pos h

/-- Settles O2: the properties hold by the guards `freeSin` to `freePow` put on the free values, and FLOOR by the three
ranges of its operand. -/
theorem namedFunctionProperties : Obligations.NamedFunctionProperties := by
  unfold Obligations.NamedFunctionProperties
  refine ⟨rfl, rfl, rfl, rfl, rfl, rfl, ?_, freeSin_neg,
    fun x => freeExp_pos, fun x hx => ?_, fun x => F32.floor_of_not_isFinite⟩
  · exact fun a => ⟨freePow_of_isZero a (b := ⟨0x00000000⟩) rfl, freePow_of_isZero a (b := ⟨0x80000000⟩) rfl⟩
  · obtain ⟨hfin, n, hint, hle, hlt⟩ := F32.isFloor_floor hx
    exact ⟨hfin, ⟨n, hint⟩, hle, hlt⟩

/-! ## Rounding of signed quotients -/

/-- A value of non-negative place is its magnitude's. -/
theorem F32.units_of_place_nonneg {x : F32} (h : 0 ≤ x.place) : x.units = F32.unitsOfMag x.mag := by
  by_cases hs : x.sign = true
  · rw [F32.place_of_sign hs] at h
    have hm : x.mag = 0 := by omega
    simp [F32.units, F32.absUnits, hm]
  · simp [F32.units, F32.absUnits, hs]

theorem F32.natAbs_roundPlace (num : Int) (den : Nat) :
    (F32.roundPlace num den).natAbs = F32.roundMag num.natAbs den := by
  unfold F32.roundPlace; split <;> simp

/-- `r` is as near to `num / den` as any finite value, and even on a tie with another one. -/
def F32.IsNearest (r : F32) (num : Int) (den : Nat) : Prop :=
  ∀ y : F32, y.isFinite = true →
    |r.units * den - num| ≤ |y.units * den - num| ∧
      (|r.units * den - num| = |y.units * den - num| → y.units = r.units ∨ r.mag % 2 = 0)

/-- Being nearest does not depend on the sign. -/
theorem F32.IsNearest.of_neg {r : F32} {num : Int} {den : Nat} (h : r.neg.IsNearest (-num) den) :
    r.IsNearest num den := by
  intro y hy
  have hflip (x : F32) : |x.neg.units * den - -num| = |x.units * den - num| := by
    rw [F32.units_neg, ← abs_neg]
    congr 1
    ring
  obtain ⟨hle, htie⟩ := h y.neg (by rwa [F32.isFinite_neg])
  rw [hflip, hflip] at hle htie
  refine ⟨hle, fun he => (htie he).imp (fun hu => ?_) (fun hp => by rwa [F32.mag_neg] at hp)⟩
  rw [F32.units_neg, F32.units_neg] at hu
  exact neg_injective hu

/-- A non-negative quotient: among the values of its sign by `roundMag_nearest`; a negative one is further away
than zero is. -/
theorem F32.isNearest_of_nonneg {r : F32} {num den : Nat} (hd : 0 < den) (hr : r.place = F32.roundMag num den)
    (hfin : r.isFinite = true) : r.IsNearest num den := by
  have hmag : F32.roundMag num den = r.mag := by rw [← F32.natAbs_place, hr, Int.natAbs_natCast]
  have hunits := F32.units_of_place_nonneg (x := r) (by omega)
  have hnear := F32.roundMag_nearest (num := num) hd (by rw [hmag]; exact F32.isFinite_iff.1 hfin)
  rw [hmag, ← hunits] at hnear
  intro y _
  by_cases hy : 0 ≤ y.place
  · rw [F32.units_of_place_nonneg hy]
    obtain ⟨hle, htie⟩ := hnear y.mag
    exact ⟨hle, fun he => (htie he).imp_left fun hm => by rw [hm, hunits]⟩
  · obtain ⟨hle, -⟩ := hnear 0
    have hneg : y.units < 0 := lt_of_not_ge (mt (F32.units_le_iff (x := F32.zero)).1 hy)
    have hlt : y.units * den < 0 := mul_neg_of_neg_of_pos hneg (by exact_mod_cast hd)
    have habs : |y.units * (den : Int) - num| = num - y.units * den := by
      rw [abs_of_neg (by omega)]; ring
    have hzero : |(F32.unitsOfMag 0 * den : Int) - num| = num := by simp
    rw [hzero] at hle
    exact ⟨by omega, fun he => by omega⟩

/-- The value at the place a quotient rounds to is the nearest one, ties to even (R11). -/
theorem F32.isNearest_of_place {r : F32} {num : Int} {den : Nat} (hd : 0 < den) (hr : r.place = F32.roundPlace num den)
    (hfin : r.isFinite = true) : r.IsNearest num den := by
  by_cases hn : num < 0
  · refine F32.IsNearest.of_neg ?_
    have hplace : r.neg.place = F32.roundMag num.natAbs den := by
      rw [F32.place_neg, hr, F32.roundPlace, if_pos hn, Int.neg_neg]
    rw [show -num = (num.natAbs : Int) by omega]
    exact F32.isNearest_of_nonneg hd hplace (by rwa [F32.isFinite_neg])
  · rw [F32.roundPlace, if_neg hn] at hr
    rw [show num = (num.natAbs : Int) by omega]
    exact F32.isNearest_of_nonneg hd hr hfin

/-- Halfway between the largest finite value and the next power of two. -/
theorem F32.unitsOfMag_overflow :
    F32.unitsOfMag (F32.infMag - 1) + F32.unitsOfMag F32.infMag = (2 ^ 25 - 1) * 2 ^ 253 := by decide

/-- The value at the place a quotient rounds to is infinite from halfway above the largest finite value on (R11). -/
theorem F32.isInf_iff_of_place {r : F32} {num : Int} {den : Nat} (hd : 0 < den)
    (hr : r.place = F32.roundPlace num den) : r.isInf = true ↔ (2 ^ 25 - 1) * 2 ^ 253 * (den : Int) ≤ 2 * |num| := by
  have hmag : r.mag = F32.roundMag num.natAbs den := by rw [← F32.natAbs_place, hr, F32.natAbs_roundPlace]
  rw [F32.isInf, beq_iff_eq, hmag, F32.roundMag_eq_infMag_iff hd, F32.unitsOfMag_overflow]
  zify
  norm_num

theorem F32.not_isNaN_of_place {r : F32} {num : Int} {den : Nat} (hr : r.place = F32.roundPlace num den) :
    r.isNaN = false := by
  have hmag : r.mag = F32.roundMag num.natAbs den := by rw [← F32.natAbs_place, hr, F32.natAbs_roundPlace]
  rw [F32.isNaN, hmag, decide_eq_false_iff_not, not_lt]
  exact F32.roundMag_le_infMag _ _

/-- The quotient of finite values, by a non-zero one. -/
theorem F32.div_of_finite {a b : F32} (ha : a.isFinite = true) (hb : b.isFinite = true) (hz : b.isZero = false) :
    a.div b = F32.ofSignMag (a.sign != b.sign) (F32.roundMag (2 ^ 149 * a.absUnits) b.absUnits) := by
  simp [F32.div, F32.not_isNaN_of_finite ha, F32.not_isNaN_of_finite hb, F32.not_isInf_of_finite ha,
    F32.not_isInf_of_finite hb, hz]

/-- The place of a rounded magnitude with a sign. -/
theorem F32.place_ofSignMag_roundMag (s : Bool) (n den : Nat) :
    (F32.ofSignMag s (F32.roundMag n den)).place = F32.roundPlace (if s then -(n : Int) else n) den := by
  rw [F32.place_ofSignMag _ (F32.roundMag_lt _ _)]
  rcases Nat.eq_zero_or_pos n with rfl | hpos
  · simp [F32.roundPlace]
  · cases s <;> simp [F32.roundPlace, hpos]

/-- The dividend in units of 2^-298 with the sign of the quotient. -/
def F32.dividend (a b : F32) : Int := if b.sign then -(a.units * 2 ^ 149) else a.units * 2 ^ 149

theorem F32.abs_dividend (a b : F32) : |F32.dividend a b| = |a.units * 2 ^ 149| := by
  unfold F32.dividend; split <;> simp

/-- Moving the divisor's sign to the dividend keeps distances. -/
theorem F32.abs_mul_absUnits_sub_dividend (x : Int) (a b : F32) :
    |x * b.absUnits - F32.dividend a b| = |x * b.units - a.units * 2 ^ 149| := by
  cases hb : b.sign
  · rw [F32.units_of_not_sign hb, F32.dividend, if_neg (by simp [hb])]
  · rw [F32.units_of_sign hb, F32.dividend, if_pos hb, ← abs_neg]
    congr 1
    ring

/-- The place of a finite quotient. -/
theorem F32.place_div {a b : F32} (ha : a.isFinite = true) (hb : b.isFinite = true) (hz : b.isZero = false) :
    (a.div b).place = F32.roundPlace (F32.dividend a b) b.absUnits := by
  have hnum : (if (a.sign != b.sign) = true then -((2 ^ 149 * a.absUnits : Nat) : Int)
      else (2 ^ 149 * a.absUnits : Nat)) = F32.dividend a b := by
    cases hsa : a.sign <;> cases hsb : b.sign <;> simp [F32.dividend, F32.units, hsa, hsb, mul_comm]
  rw [F32.div_of_finite ha hb hz, F32.place_ofSignMag_roundMag, hnum]

/-- Settles O3: sum, product and quotient have the place their exact value rounds to, and that place is the nearest. -/
theorem arithmeticRoundsToNearestEven : Obligations.ArithmeticRoundsToNearestEven := by
  unfold Obligations.ArithmeticRoundsToNearestEven
  intro a b ha hb
  refine ⟨⟨fun hr => ?_, ?_, F32.not_isNaN_add ha hb⟩, rfl,
    ⟨F32.isNearest_of_place (by decide) (F32.place_mul ha hb), ?_, F32.not_isNaN_mul ha hb⟩, fun hz => ?_⟩
  · simpa [F32.IsNearest] using F32.isNearest_of_place Nat.one_pos (F32.place_add ha hb) hr
  · simpa using F32.isInf_iff_of_place Nat.one_pos (F32.place_add ha hb)
  · exact F32.isInf_iff_of_place (by decide) (F32.place_mul ha hb)
  · have hd : 0 < b.absUnits := Nat.pos_of_ne_zero (mt F32.absUnits_eq_zero_iff.1 (by simp [hz]))
    have hplace := F32.place_div ha hb hz
    refine ⟨fun hr => ?_, ?_, F32.not_isNaN_of_place hplace⟩
    · simpa only [F32.IsNearest, F32.abs_mul_absUnits_sub_dividend] using F32.isNearest_of_place hd hplace hr
    · simpa only [F32.abs_dividend, ← F32.natAbs_units, Int.natCast_natAbs] using F32.isInf_iff_of_place hd hplace

/-! ## NaN operands -/

section NaN
variable {a b : F32} (h : a.isNaN = true ∨ b.isNaN = true)
include h

theorem F32.add_of_isNaN : a.add b = F32.newNaN .add a b := if_pos (by simpa using h)

theorem F32.mul_of_isNaN : a.mul b = F32.newNaN .mul a b := if_pos (by simpa using h)

theorem F32.div_of_isNaN : a.div b = F32.newNaN .div a b := if_pos (by simpa using h)

theorem F32.lt_of_isNaN : a.lt b = false := by rcases h with h | h <;> simp [F32.lt, h]

theorem F32.le_of_isNaN : a.le b = false := by rcases h with h | h <;> simp [F32.le, h]

theorem F32.feq_of_isNaN : a.feq b = false := by rcases h with h | h <;> simp [F32.feq, h]

end NaN

theorem F32.isNaN_sub_of_isNaN {a b : F32} (h : a.isNaN = true ∨ b.isNaN = true) : (a.sub b).isNaN = true := by
  rw [F32.sub, F32.add_of_isNaN (by simpa using h), F32.isNaN_newNaN]

theorem F32.clamp_of_isNaN {x : F32} (lo hi : F32) (h : x.isNaN = true) : x.clamp lo hi = x := by
  simp [F32.clamp, F32.gt, F32.lt_of_isNaN (.inl h), F32.lt_of_isNaN (.inr h)]

/-! ## Comparisons -/

section Order
variable {a b : F32} (ha : a.isNaN = false) (hb : b.isNaN = false)
include ha hb

theorem F32.lt_eq_place : a.lt b = decide (a.place < b.place) := by simp [F32.lt, ha, hb]

theorem F32.le_eq_place : a.le b = decide (a.place ≤ b.place) := by simp [F32.le, ha, hb]

theorem F32.feq_eq_place : a.feq b = decide (a.place = b.place) := by simp [F32.feq, ha, hb]

theorem F32.le_iff_units : a.le b = true ↔ a.units ≤ b.units := by
  rw [F32.le_eq_place ha hb, decide_eq_true_iff, F32.units_le_iff]

theorem F32.lt_iff_units : a.lt b = true ↔ a.units < b.units := by
  rw [F32.lt_eq_place ha hb, decide_eq_true_iff, ← not_le, ← not_le, F32.units_le_iff]

theorem F32.feq_iff_units : a.feq b = true ↔ a.units = b.units := by
  rw [F32.feq_eq_place ha hb, decide_eq_true_iff, le_antisymm_iff, le_antisymm_iff, F32.units_le_iff, F32.units_le_iff]

end Order

/-- An infinity's place is at the end its sign says. -/
theorem F32.place_of_isInf {a : F32} (h : a.isInf = true) :
    a.place = if a.sign then -(F32.infMag : Int) else F32.infMag := by
  rw [F32.place, F32.isInf_iff.1 h]

/-- What the order says of an infinity and a finite value. -/
theorem F32.compare_isInf_isFinite {a b : F32} (ha : a.isInf = true) (hb : b.isFinite = true) :
    a.lt b = a.sign ∧ a.le b = a.sign ∧ b.lt a = !a.sign ∧ b.le a = !a.sign ∧ a.feq b = false ∧ b.feq a = false := by
  have hna := F32.not_isNaN_of_isInf ha
  have hnb := F32.not_isNaN_of_finite hb
  have hp := F32.place_of_isInf ha
  obtain ⟨hlo, hhi⟩ := F32.place_bounds hb
  simp only [F32.lt_eq_place hna hnb, F32.le_eq_place hna hnb, F32.lt_eq_place hnb hna, F32.le_eq_place hnb hna,
    F32.feq_eq_place hna hnb, F32.feq_eq_place hnb hna]
  cases hs : a.sign <;> simp only [hs, if_true, if_false, Bool.false_eq_true] at hp <;> simp <;> omega

/-- What the order says of two infinities. -/
theorem F32.compare_isInf_isInf {a b : F32} (ha : a.isInf = true) (hb : b.isInf = true) :
    a.lt b = (a.sign && !b.sign) ∧ a.le b = (a.sign || !b.sign) ∧ a.feq b = (a.sign == b.sign) := by
  have hna := F32.not_isNaN_of_isInf ha
  have hnb := F32.not_isNaN_of_isInf hb
  rw [F32.lt_eq_place hna hnb, F32.le_eq_place hna hnb, F32.feq_eq_place hna hnb, F32.place_of_isInf ha,
    F32.place_of_isInf hb]
  cases a.sign <;> cases b.sign <;> decide

/-! ## Operations on finite values -/

section Finite
variable {a b : F32} (ha : a.isFinite = true) (hb : b.isFinite = true)
include ha hb

/-- A sum of exactly zero. -/
theorem F32.add_of_units_eq_zero (h : a.units + b.units = 0) : a.add b = F32.ofSignMag (a.sign && b.sign) 0 := by
  simp [F32.add, F32.not_isNaN_of_finite ha, F32.not_isNaN_of_finite hb, F32.not_isInf_of_finite ha,
    F32.not_isInf_of_finite hb, h]

theorem F32.mul_of_finite :
    a.mul b = F32.ofSignMag (a.sign != b.sign) (F32.roundMag (a.absUnits * b.absUnits) (2 ^ 149)) := by
  simp [F32.mul, F32.not_isNaN_of_finite ha, F32.not_isNaN_of_finite hb, F32.not_isInf_of_finite ha,
    F32.not_isInf_of_finite hb]

theorem F32.sign_mul_of_finite : (a.mul b).sign = (a.sign != b.sign) := by
  rw [F32.mul_of_finite ha hb, F32.sign_ofSignMag _ (F32.roundMag_lt _ _)]

theorem F32.isZero_mul_of_isZero (h : a.isZero = true ∨ b.isZero = true) : (a.mul b).isZero = true := by
  have hprod : a.absUnits * b.absUnits = 0 :=
    Nat.mul_eq_zero.2 (h.imp F32.absUnits_of_isZero F32.absUnits_of_isZero)
  rw [F32.mul_of_finite ha hb, hprod, F32.roundMag_zero, F32.isZero_ofSignMag_zero]

theorem F32.sign_div_of_finite (hz : b.isZero = false) : (a.div b).sign = (a.sign != b.sign) := by
  rw [F32.div_of_finite ha hb hz, F32.sign_ofSignMag _ (F32.roundMag_lt _ _)]

theorem F32.isZero_div_of_isZero (hz : b.isZero = false) (h : a.isZero = true) : (a.div b).isZero = true := by
  rw [F32.div_of_finite ha hb hz, F32.absUnits_of_isZero h, Nat.mul_zero, F32.roundMag_zero, F32.isZero_ofSignMag_zero]

end Finite

/-- Division by zero (R11). -/
theorem F32.div_isZero {a b : F32} (ha : a.isFinite = true) (hb : b.isZero = true) :
    a.div b = if a.isZero then F32.newNaN .div a b else F32.ofSignMag (a.sign != b.sign) F32.infMag := by
  have hfb := F32.isFinite_of_isZero hb
  simp [F32.div, F32.not_isNaN_of_finite ha, F32.not_isNaN_of_finite hfb, F32.not_isInf_of_finite ha,
    F32.not_isInf_of_finite hfb, hb]

/-! ## Operations with an infinity -/

section OneInfinity
variable {a b : F32} (ha : a.isInf = true) (hb : b.isFinite = true)
include ha hb

theorem F32.add_isInf_isFinite : a.add b = a := by
  simp [F32.add, F32.not_isNaN_of_isInf ha, F32.not_isNaN_of_finite hb, ha, F32.not_isInf_of_finite hb]

theorem F32.add_isFinite_isInf : b.add a = a := by
  simp [F32.add, F32.not_isNaN_of_isInf ha, F32.not_isNaN_of_finite hb, ha, F32.not_isInf_of_finite hb]

theorem F32.div_isInf_isFinite : a.div b = F32.ofSignMag (a.sign != b.sign) F32.infMag := by
  simp [F32.div, F32.not_isNaN_of_isInf ha, F32.not_isNaN_of_finite hb, ha, F32.not_isInf_of_finite hb]

theorem F32.div_isFinite_isInf : b.div a = F32.ofSignMag (b.sign != a.sign) 0 := by
  simp [F32.div, F32.not_isNaN_of_isInf ha, F32.not_isNaN_of_finite hb, ha, F32.not_isInf_of_finite hb]

end OneInfinity

/-- A product with an infinity: a NaN with a zero, else an infinity (R11). -/
theorem F32.mul_of_isInf {a b : F32} (hna : a.isNaN = false) (hnb : b.isNaN = false)
    (h : a.isInf = true ∨ b.isInf = true) :
    a.mul b = if a.isZero || b.isZero then F32.newNaN .mul a b else F32.ofSignMag (a.sign != b.sign) F32.infMag := by
  simp [F32.mul, hna, hnb, h]

section TwoInfinities
variable {a b : F32} (ha : a.isInf = true) (hb : b.isInf = true)
include ha hb

theorem F32.add_isInf_isInf : a.add b = if a.sign != b.sign then F32.newNaN .add a b else a := by
  simp [F32.add, F32.not_isNaN_of_isInf ha, F32.not_isNaN_of_isInf hb, ha, hb]

theorem F32.isNaN_add_isInf_isInf : (a.add b).isNaN = (a.sign != b.sign) := by
  rw [F32.add_isInf_isInf ha hb]
  by_cases hs : (a.sign != b.sign) = true
  · rw [if_pos hs, F32.isNaN_newNaN, hs]
  · rw [if_neg hs, F32.not_isNaN_of_isInf ha, Bool.eq_false_iff.2 hs]

theorem F32.div_isInf_isInf : a.div b = F32.newNaN .div a b := by
  simp [F32.div, F32.not_isNaN_of_isInf ha, F32.not_isNaN_of_isInf hb, ha, hb]

theorem F32.mul_isInf_isInf : a.mul b = F32.ofSignMag (a.sign != b.sign) F32.infMag := by
  rw [F32.mul_of_isInf (F32.not_isNaN_of_isInf ha) (F32.not_isNaN_of_isInf hb) (.inl ha),
    F32.not_isZero_of_isInf ha, F32.not_isZero_of_isInf hb]
  rfl

end TwoInfinities

theorem F32.isNaN_sub_isInf_isInf {a b : F32} (ha : a.isInf = true) (hb : b.isInf = true) :
    (a.sub b).isNaN = (a.sign == b.sign) := by
  rw [F32.sub, F32.isNaN_add_isInf_isInf ha (by rwa [F32.isInf_neg]), F32.sign_neg]
  cases a.sign <;> cases b.sign <;> rfl

/-- Settles O4: clause by clause, each by the equation of the operation on its class of operands. -/
theorem arithmeticSpecialValues : Obligations.ArithmeticSpecialValues := by
  unfold Obligations.ArithmeticSpecialValues
  refine ⟨fun a b h => ?nan, fun a b => ⟨rfl, rfl, rfl⟩, fun a b ha hb => ?finite, fun a b ha hb => ?infFinite,
    fun a b ha hb => ?infInf, fun a b ha hb => ?zeroZero, fun a b ha hza hb => ?overZero,
    fun a => ⟨F32.sign_neg a, F32.mag_neg a⟩, fun n hn => (F32.units_ofInt hn).symm, fun x lo hi => rfl,
    fun x lo hi => F32.clamp_of_isNaN lo hi⟩
  case nan =>
    simp [F32.isNaN_sub_of_isNaN h, F32.add_of_isNaN h, F32.mul_of_isNaN h, F32.div_of_isNaN h, F32.gt, F32.ge,
      F32.lt_of_isNaN h, F32.le_of_isNaN h, F32.feq_of_isNaN h, F32.lt_of_isNaN h.symm, F32.le_of_isNaN h.symm]
  case finite =>
    have hna := F32.not_isNaN_of_finite ha
    have hnb := F32.not_isNaN_of_finite hb
    exact ⟨F32.lt_iff_units hna hnb, F32.le_iff_units hna hnb, F32.feq_iff_units hna hnb,
      fun h => by simp [F32.add_of_units_eq_zero ha hb h], F32.sign_mul_of_finite ha hb, F32.isZero_mul_of_isZero ha hb,
      fun hz => ⟨F32.sign_div_of_finite ha hb hz, F32.isZero_div_of_isZero ha hb hz⟩⟩
  case infFinite =>
    have hna := F32.not_isNaN_of_isInf ha
    have hnb := F32.not_isNaN_of_finite hb
    have hza := F32.not_isZero_of_isInf ha
    obtain ⟨hlt, hle, hgt, hge, heq, heq'⟩ := F32.compare_isInf_isFinite ha hb
    refine ⟨hlt, hle, hgt, hge, heq, heq', F32.add_isInf_isFinite ha hb, F32.add_isFinite_isInf ha hb, ?_⟩
    rw [F32.div_isInf_isFinite ha hb, F32.div_isFinite_isInf ha hb, F32.mul_of_isInf hna hnb (.inl ha),
      F32.mul_of_isInf hnb hna (.inr ha)]
    cases b.isZero <;> simp [hza]
  case infInf =>
    obtain ⟨hlt, hle, heq⟩ := F32.compare_isInf_isInf ha hb
    refine ⟨hlt, hle, heq, fun hs => ?_, F32.isNaN_add_isInf_isInf ha hb, F32.isNaN_sub_isInf_isInf ha hb, ?_⟩
    · simp [F32.add_isInf_isInf ha hb, hs]
    · simp [F32.div_isInf_isInf ha hb, F32.mul_isInf_isInf ha hb]
  case zeroZero =>
    have hfa := F32.isFinite_of_isZero ha
    have hfb := F32.isFinite_of_isZero hb
    have heq := F32.feq_iff_units (F32.not_isNaN_of_finite hfa) (F32.not_isNaN_of_finite hfb)
    exact ⟨by simp [F32.div_isZero hfa hb, ha], heq.2 (by rw [F32.units_of_isZero ha, F32.units_of_isZero hb])⟩
  case overZero =>
    simp [F32.div_isZero ha hb, hza]

end Sys2Proof
end

section
/-! SUPPORT and PROOFS. Which instruction writes which register (spec 10_state.md, the columns "written by"), the
invariant at power-on, and the period bound after SYN.STARTVOICE (R45). -/

namespace Sys2Proof.Machine

/-! ## What an instruction may write -/

/-- `WritesOnly s i t`: the state `t` is `s` but for the registers that have `i` among their writers in the columns
"written by" of R21 and R38 to R42. Of the last two rows one is for every PSET row, and one for the instructions that
write nothing but voice banks and the result line. -/
inductive WritesOnly (s : State) : Instr → State → Prop where
  | reset {ng voices lfo lfoStep filterZip lastNote pitchBend modWheel pressure filterCtl sustainPedal sm} :
    WritesOnly s .reset
      { s with
        ng := ng, voices := voices, lfo := lfo, lfoStep := lfoStep, filterZip := filterZip, lastNote := lastNote
        pitchBend := pitchBend, modWheel := modWheel, pressure := pressure, filterCtl := filterCtl
        sustainPedal := sustainPedal, sm := sm }
  | alloc {b r sampleRate allocated} :
    WritesOnly s (.alloc b r) { s with sampleRate := sampleRate, allocated := allocated }
  | dealloc {allocated} : WritesOnly s .dealloc { s with allocated := allocated }
  | render {b n ng lfo lfoStep filterZip voices sm outL outR} :
    WritesOnly s (.render b n)
      { s with
        ng := ng, lfo := lfo, lfoStep := lfoStep, filterZip := filterZip, voices := voices, sm := sm
        outL := outL, outR := outR }
  | midi {b0 b1 b2 voices lastNote pitchBend pressure modWheel filterCtl sustainPedal} :
    WritesOnly s (.midi b0 b1 b2)
      { s with
        voices := voices, lastNote := lastNote, pitchBend := pitchBend, pressure := pressure, modWheel := modWheel
        filterCtl := filterCtl, sustainPedal := sustainPedal }
  | midiCc {ctl val modWheel filterCtl sustainPedal voices} :
    WritesOnly s (.midiCc ctl val)
      { s with modWheel := modWheel, filterCtl := filterCtl, sustainPedal := sustainPedal, voices := voices }
  | midiNoteOn {n v voices lastNote} :
    WritesOnly s (.midiNoteOn n v) { s with voices := voices, lastNote := lastNote }
  | midiPressure {val pressure} : WritesOnly s (.midiPressure val) { s with pressure := pressure }
  | midiBend {d1 d2 pitchBend} : WritesOnly s (.midiBend d1 d2) { s with pitchBend := pitchBend }
  | ccModWheel {val modWheel} : WritesOnly s (.ccModWheel val) { s with modWheel := modWheel }
  | ccSustain {val sustainPedal voices} :
    WritesOnly s (.ccSustain val) { s with sustainPedal := sustainPedal, voices := voices }
  | ccFilterPos {val filterCtl} : WritesOnly s (.ccFilterPos val) { s with filterCtl := filterCtl }
  | ccFilterNeg {val filterCtl} : WritesOnly s (.ccFilterNeg val) { s with filterCtl := filterCtl }
  | ccChannelMode {low voices sustainPedal} :
    WritesOnly s (.ccChannelMode low) { s with voices := voices, sustainPedal := sustainPedal }
  | ngReset {ng} : WritesOnly s .ngReset { s with ng := ng }
  | ngNext {ng result} : WritesOnly s .ngNext { s with ng := ng, result := result }
  | synNoteOn {n v voices lastNote} : WritesOnly s (.synNoteOn n v) { s with voices := voices, lastNote := lastNote }
  | synStartVoice {v n w voices lastNote} :
    WritesOnly s (.synStartVoice v n w) { s with voices := voices, lastNote := lastNote }
  | synLfoStep {lfo lfoStep filterZip voices} :
    WritesOnly s .synLfoStep
      { s with lfo := lfo, lfoStep := lfoStep, filterZip := filterZip, voices := voices }
  | smSet {x sm} : WritesOnly s (.smSet x) { s with sm := sm }
  | smNext {sm result} : WritesOnly s .smNext { s with sm := sm, result := result }
  | pset {i p} (h : isPset i = true) : WritesOnly s i { s with p := p }
  | bankAndResult {i voices result} : WritesOnly s i { s with voices := voices, result := result }

theorem sustainCc_frame (c : Config) (val : BitVec 7) (s : State) :
    sustainCc c val s =
      { s with sustainPedal := (sustainCc c val s).sustainPedal, voices := (sustainCc c val s).voices } := by
  unfold sustainCc; split <;> rfl

/-- An instruction that answers a next state writes only what names it as a writer. -/
theorem writesOnly_of_exec {i : Instr} {s t : State} (h : exec i s = .next t) : WritesOnly s i t := by
  cases i with
  | reset => obtain ⟨-, rfl⟩ := guarded_eq_next.1 h; exact .reset
  | alloc => obtain ⟨-, rfl⟩ := guarded_eq_next.1 h; exact .alloc
  | dealloc => obtain rfl := Host.Outcome.next.inj h; exact .dealloc
  | render => obtain ⟨-, rfl⟩ := execRenderIn_next h; rw [renderBlock_frame]; exact .render
  | midi => rw [midiMessage_frame h]; exact .midi
  | midiCc => obtain rfl := Host.Outcome.next.inj h; rw [controlChange_frame]; exact .midiCc
  | midiNoteOn => rw [noteOnMsg_eq_next h]; exact .midiNoteOn
  | midiNoteOff => obtain ⟨-, rfl⟩ := noteOffMsg_eq_next.1 h; rw [noteOff_frame]; exact .bankAndResult
  | midiPressure => obtain rfl := Host.Outcome.next.inj h; exact .midiPressure
  | midiBend => obtain rfl := Host.Outcome.next.inj h; exact .midiBend
  | ccModWheel => obtain rfl := Host.Outcome.next.inj h; exact .ccModWheel
  | ccSustain => obtain rfl := Host.Outcome.next.inj h; rw [sustainCc_frame]; exact .ccSustain
  | ccFilterPos => obtain rfl := Host.Outcome.next.inj h; exact .ccFilterPos
  | ccFilterNeg => obtain rfl := Host.Outcome.next.inj h; exact .ccFilterNeg
  | ccChannelMode => obtain rfl := Host.Outcome.next.inj h; exact .ccChannelMode
  | ngReset => obtain rfl := Host.Outcome.next.inj h; exact .ngReset
  | ngNext => obtain rfl := Host.Outcome.next.inj h; exact .ngNext
  | synNoteOn => obtain ⟨-, rfl⟩ := guarded_eq_next.1 h; rw [noteOn_frame]; exact .synNoteOn
  | synNoteOff => obtain ⟨-, rfl⟩ := guarded_eq_next.1 h; rw [noteOff_frame]; exact .bankAndResult
  | synStartVoice => obtain ⟨-, rfl⟩ := guarded_eq_next.1 h; exact .synStartVoice
  | synCalcPeriod | synRestartMono | synUpdatePeriod => obtain ⟨-, rfl⟩ := guarded_eq_next.1 h; exact .bankAndResult
  | synNextQ => obtain rfl := Host.Outcome.next.inj h; rw [nextQPop_frame]; exact .bankAndResult
  | synLfoStep => obtain ⟨-, rfl⟩ := guarded_eq_next.1 h; rw [lfoStep_frame]; exact .synLfoStep
  | smSet => obtain rfl := Host.Outcome.next.inj h; exact .smSet
  | smNext => obtain rfl := Host.Outcome.next.inj h; exact .smNext
  | pset | psetNoiseMix | psetEnvAttack | psetEnvDecay | psetEnvSustain | psetEnvRelease | psetOscMix | psetDetune
  | psetTune | psetNumVoices | psetVolumeTrim | psetOutputLevel | psetVelocitySensitivity | psetIgnoreVelocity
  | psetLfoInc | psetVibrato | psetPwmDepth | psetGlideMode | psetGlideRate | psetGlideBend | psetFilterKeyTracking
  | psetFilterQ | psetFilterLFODepth | psetFilterAttack | psetFilterDecay | psetFilterSustain | psetFilterRelease
  | psetFilterEnvDepth => obtain rfl := Host.Outcome.next.inj h; exact .pset rfl
  | _ => obtain rfl := Host.Outcome.next.inj h; exact .bankAndResult

/-- Settles O14: of the rows of `WritesOnly` that of PSET alone replaces the parameter file, and that of RENDER alone
the output buffers. -/
theorem paramAndBufferWriters : Obligations.ParamAndBufferWriters := by
  unfold Obligations.ParamAndBufferWriters
  intro i s t h
  cases writesOnly_of_exec h with
  | pset hi => simp [hi]
  | _ => simp

/-- Settles O15: each row of `WritesOnly` leaves every register that does not name its instruction as a writer. -/
theorem synthRegisterWriters : Obligations.SynthRegisterWriters := by
  unfold Obligations.SynthRegisterWriters
  intro i s t h
  cases writesOnly_of_exec h <;> simp

/-! ## Power-on -/

theorem reset_voice (v : VoiceIx) : State.reset.voice v = Voice.powerOn cfg := Bank.get_all _ v

/-- Settles O6: the buffers are empty, every note and counter is 0, and the power-on sample rate is legal. -/
theorem invariantAtReset : Obligations.InvariantAtReset := by
  unfold Obligations.InvariantAtReset
  have hinv : State.reset.Inv := {
    outL_wf := reset_outL_wf cfg
    outR_wf := reset_outR_wf cfg
    outL_safe := List.forall_mem_nil _
    outR_safe := List.forall_mem_nil _
    notes := fun v => by rw [reset_voice]; decide
    lastNote := by decide
    lfoStep := by decide
    ramp := by decide
    rate := by decide }
  exact ⟨hinv, fun c => ⟨reset_outL_wf c, reset_outR_wf c⟩⟩

/-! ## The started periods -/

/-- A period that is long enough, and its detuned companion (R274). -/
theorem periodTooShort_eq_false {c : Config} {detune per : F32} :
    periodTooShort c detune per = false ↔ per.lt c.minPeriod = false ∧ (per.mul detune).lt c.minPeriod = false :=
  Bool.or_eq_false_iff

/-- The starting period is not below MIN_PERIOD (R276). -/
theorem startPeriod_not_lt (per glideBend : F32) (distance : Int) :
    (startPeriod cfg per glideBend distance).lt cfg.minPeriod = false := by
  unfold startPeriod
  dsimp only
  split
  next => decide
  next h => exact Bool.eq_false_iff.2 h

/-- Settles O42: the doubling loop ended, or the command was refused, and the starting period is bounded by its rule. -/
theorem startedPeriodsNotShort : Obligations.StartedPeriodsNotShort := by
  unfold Obligations.StartedPeriodsNotShort
  intro v note vel s t h
  obtain ⟨hrefusal, rfl⟩ := guarded_eq_next.1 h
  obtain ⟨-, hloop⟩ := Option.or_eq_none_iff.1 hrefusal
  obtain ⟨htarget, hdetuned⟩ := periodTooShort_eq_false.1 (periodRefusal_eq_none.1 hloop)
  have hvoice : (startVoice cfg v note vel s).voice v = startedVoice cfg s v note vel (s.voice v) :=
    Bank.get_set_same ..
  rw [hvoice]
  exact ⟨htarget, startPeriod_not_lt .., hdetuned⟩

end Sys2Proof.Machine
end

section
/-! SUPPORT and PROOFS. The output buffers and the voice bank as storage (spec 20_memory.md R60, R61; 10_state.md R28). -/

namespace Sys2Proof.Machine

/-! ## A buffer is what it reads -/

/-- In canonical form the words that stand in a buffer are the words that are read. -/
theorem mem_iff_outWord? {c : Config} {b : OutBuf} (hb : Memory.wfIn c b) {k : Nat} {x : F32} :
    (k, x) ∈ b ↔ outWord? b k = some x := by
  refine ⟨fun hmem => ?_, mem_of_outWord?⟩
  have hrising := hb.1
  clear hb
  induction b with
  | nil => simp at hmem
  | cons e t ih =>
    obtain ⟨a, y⟩ := e
    rw [List.map_cons, List.pairwise_cons] at hrising
    obtain ⟨hlt, hrising⟩ := hrising
    rcases List.mem_cons.1 hmem with heq | hmem
    · obtain ⟨rfl, rfl⟩ := Prod.mk.inj heq
      exact if_pos rfl
    · have hak : a < k := hlt k (List.mem_map_of_mem hmem)
      rw [outWord?, if_neg hak.ne]
      exact ih hmem hrising

/-- Canonical buffers that read alike are equal. -/
theorem eq_of_outWord?_eq {c : Config} {b b' : OutBuf} (hb : Memory.wfIn c b) (hb' : Memory.wfIn c b')
    (h : ∀ k, outWord? b k = outWord? b' k) : b = b' := by
  have : Std.Irrefl (fun e f : Nat × F32 => e.1 < f.1) := ⟨fun e => lt_irrefl e.1⟩
  have : Std.Antisymm (fun e f : Nat × F32 => e.1 < f.1) := ⟨fun e f hef hfe => absurd hef (lt_asymm hfe)⟩
  refine List.Pairwise.eq_of_mem_iff (List.pairwise_map.1 hb.1) (List.pairwise_map.1 hb'.1) fun ⟨k, x⟩ => ?_
  rw [mem_iff_outWord? hb, mem_iff_outWord? hb', h k]

/-- A write keeps the canonical form exactly when its address is one of the buffer's (R60). -/
theorem outWrite_wf_iff {c : Config} {b : OutBuf} (hb : Memory.wfIn c b) (k : Nat) (x : F32) :
    Memory.wfIn c (outWrite b k x) ↔ k < c.outCapacity := by
  refine ⟨fun ⟨_, hbelow⟩ => ?_, fun hk => outWrite_wf hb hk x⟩
  exact hbelow k (List.mem_map_of_mem (mem_of_outWord? (outWord?_write_same b k x)))

/-! ## The voice bank -/

/-- Writing back what stood in a bank undoes a write. -/
theorem State.setVoice_setVoice_voice (s : State) (v : VoiceIx) (x : Voice) :
    (s.setVoice v x).setVoice v (s.voice v) = s := by
  have hbank : (s.voices.set v x).set v (s.voices.get v) = s.voices := by
    refine Bank.ext_get fun w => ?_
    by_cases hw : v = w
    · rw [← hw, Bank.get_set_same]
    · rw [Bank.get_set_other _ hw, Bank.get_set_other _ hw]
  show { s with voices := (s.voices.set v x).set v (s.voices.get v) } = s
  rw [hbank]

/-- Settles O16: each clause is one law of the storage it speaks of. -/
theorem storageLaws : Obligations.StorageLaws := by
  unfold Obligations.StorageLaws
  exact ⟨outRead_write_same, fun b _ _ x hkj => outWord?_write_other b hkj x, fun _ _ x hb hk => outWrite_wf hb hk x,
    fun _ _ k x hb => outWrite_wf_iff hb k x, fun _ _ => eq_of_outWord?_eq,
    fun s v w x => ⟨s.voice_setVoice v w x, rfl, s.setVoice_setVoice_voice v x⟩⟩

end Sys2Proof.Machine
end

section
/-! SUPPORT and PROOFS. The engine's invariant (spec 10_state.md R27, 20_memory.md R60, 45_synth_render.md R219): its
register part, its buffer part, and that every step keeps both. -/

namespace Sys2Proof.Machine

/-! ## Legal registers -/

/-- The part of `State.Inv` that speaks of registers, on the registers it reads. -/
structure LegalRegs (voices : Bank Voice) (lastNote : BitVec 8) (lfoStep : Int) (sm : Smoother) (fs : F32) : Prop where
  notes : ∀ v, noteLegal (voices.get v).note = true
  lastNote : lastNote.toNat < 128
  lfoStep : 0 ≤ lfoStep ∧ lfoStep ≤ cfg.lfoMax
  ramp : sm.count ≤ sm.len
  rate : sampleRateInRange cfg fs = true

/-- The registers of a state are legal. -/
abbrev State.RegsLegal (s : State) : Prop := LegalRegs s.voices s.lastNote s.lfoStep s.sm s.sampleRate

theorem State.Inv.regsLegal {s : State} (h : s.Inv) : s.RegsLegal :=
  ⟨h.notes, h.lastNote, h.lfoStep, h.ramp, h.rate⟩

theorem noteLegal_zero : noteLegal 0 = true := by decide

theorem noteLegal_sustain : noteLegal cfg.sustain = true := by decide

theorem noteReg_lt (note : BitVec 7) : (noteReg note).toNat < 128 := by
  simpa [noteReg] using Nat.lt_of_le_of_lt (Nat.mod_le _ _) note.isLt

theorem noteLegal_noteReg (note : BitVec 7) : noteLegal (noteReg note) = true := by
  simp [noteLegal, noteReg_lt]

/-! ## Legal notes in a bank -/

section Bank
variable {b : Bank Voice} (hb : ∀ v, noteLegal (b.get v).note = true)
include hb

theorem notesLegal_set (v : VoiceIx) {x : Voice} (hx : noteLegal x.note = true) (w : VoiceIx) :
    noteLegal ((b.set v x).get w).note = true := by
  rw [Bank.get_set]
  split
  · exact hx
  · exact hb w

theorem notesLegal_map {f : Voice → Voice} (hf : ∀ x, noteLegal x.note = true → noteLegal (f x).note = true)
    (w : VoiceIx) : noteLegal ((b.map f).get w).note = true := by
  rw [Bank.get_map]
  exact hf _ (hb w)

theorem noteLegal_nextQNote : noteLegal (nextQNote b) = true := by
  unfold nextQNote
  split
  · exact hb _
  · exact noteLegal_zero

end Bank
/-! ## Legal registers after an operation -/

theorem pedalUpVoice_noteLegal {v : Voice} (h : noteLegal v.note = true) :
    noteLegal (pedalUpVoice cfg v).note = true := by
  unfold pedalUpVoice
  split
  · exact noteLegal_zero
  · exact h

theorem noteOffVoice_noteLegal (pedal : Bool) (note : BitVec 7) {v : Voice} (h : noteLegal v.note = true) :
    noteLegal (noteOffVoice cfg pedal note v).note = true := by
  unfold noteOffVoice
  split
  · split
    · exact noteLegal_sustain
    · exact noteLegal_zero
  · exact h

@[simp] theorem tickVoice_note (c : Config) (fs bend detune vibratoMod pwm zip : F32) (v : Voice) :
    (tickVoice c fs bend detune vibratoMod pwm zip v).note = v.note := by
  unfold tickVoice
  split <;> rfl

@[simp] theorem prologueVoice_note (c : Config) (bend : F32) (p : Params) (v : Voice) :
    (prologueVoice c bend p v).note = v.note := by
  unfold prologueVoice
  split <;> rfl

@[simp] theorem mixVoice_note (c : Config) (noise : F32) (v : Voice) : (mixVoice c noise v).1.note = v.note := by
  unfold mixVoice
  split <;> rfl

theorem sweepVoice_noteLegal (was : Bool) {v : Voice} (h : noteLegal v.note = true) :
    noteLegal (sweepVoice cfg was v).note = true := by
  unfold sweepVoice
  split
  · exact noteLegal_zero
  · exact h

theorem smSet_ramp {sm : Smoother} (h : sm.count ≤ sm.len) (x : F32) : (smSet sm x).count ≤ (smSet sm x).len := by
  unfold smSet
  split
  · exact h
  · split
    · exact Nat.zero_le _
    · exact le_rfl

theorem smNext_ramp {sm : Smoother} (h : sm.count ≤ sm.len) : (smNext sm).1.count ≤ (smNext sm).1.len := by
  unfold smNext
  split
  · exact h
  · exact (Nat.sub_le _ _).trans h

/-- A rate is refused exactly when it is out of range (R326 (c)). -/
theorem rateRefusal_eq_none {c : Config} {fs : F32} : rateRefusal c fs = none ↔ sampleRateInRange c fs = true := by
  unfold rateRefusal
  split
  next hrate => simp [hrate]
  next hrate => simp [hrate]

section Operations
variable {s : State} (h : s.RegsLegal)
include h

theorem setVoice_regsLegal (v : VoiceIx) {x : Voice} (hx : noteLegal x.note = true) : (s.setVoice v x).RegsLegal :=
  { h with notes := notesLegal_set h.notes v hx }

theorem mapVoices_regsLegal {f : Voice → Voice} (hf : ∀ x, noteLegal x.note = true → noteLegal (f x).note = true) :
    (s.mapVoices f).RegsLegal :=
  { h with notes := notesLegal_map h.notes hf }

theorem setResult_regsLegal (r : MicroResult) : (s.setResult r).RegsLegal := h

theorem onEnv_regsLegal (v : VoiceIx) (e : EnvSel) (f : Envelope → Envelope) : (s.onEnv v e f).RegsLegal :=
  setVoice_regsLegal h v (by rw [Voice.note_setEnv]; exact h.notes v)

theorem onOsc_regsLegal (v : VoiceIx) (o : OscSel) (f : Oscillator → Oscillator) : (s.onOsc v o f).RegsLegal :=
  setVoice_regsLegal h v (by rw [Voice.note_setOsc]; exact h.notes v)

theorem onFilter_regsLegal (v : VoiceIx) (f : Filter → Filter) : (s.onFilter v f).RegsLegal :=
  setVoice_regsLegal h v (h.notes v)

theorem startVoice_regsLegal (c : Config) (v : VoiceIx) (note vel : BitVec 7) :
    (startVoice c v note vel s).RegsLegal :=
  { h with notes := notesLegal_set h.notes v (noteLegal_noteReg note), lastNote := noteReg_lt note }

theorem restartMono_regsLegal (c : Config) {note : BitVec 8} (hnote : noteLegal note = true) (vel : Int) :
    (restartMono c note vel s).RegsLegal :=
  setVoice_regsLegal h 0 hnote

/-- SYN.SHIFTQ moves legal notes from slot to slot. -/
theorem shiftQ_regsLegal : (shiftQ s).RegsLegal :=
  { h with
    notes := forall_voiceIx (h.notes 0) (h.notes 0) (h.notes 1) (h.notes 2) (h.notes 3) (h.notes 4) (h.notes 5)
      (h.notes 6) }

theorem nextQPop_regsLegal : (nextQPop s).RegsLegal := by
  unfold nextQPop
  split
  · exact setVoice_regsLegal h _ noteLegal_zero
  · exact h

theorem noteOn_regsLegal (c : Config) (note vel : BitVec 7) : (noteOn c note vel s).RegsLegal := by
  unfold noteOn
  dsimp only
  split
  · split
    · exact restartMono_regsLegal (shiftQ_regsLegal h) c (noteLegal_noteReg note) _
    · exact startVoice_regsLegal h ..
  · exact startVoice_regsLegal h ..

theorem noteOff_regsLegal (note : BitVec 7) : (noteOff cfg note s).RegsLegal := by
  unfold noteOff
  split
  · exact restartMono_regsLegal (nextQPop_regsLegal h) cfg (noteLegal_nextQNote h.notes) _
  · exact mapVoices_regsLegal h fun _ => noteOffVoice_noteLegal _ _

theorem sustainCc_regsLegal (val : BitVec 7) : (sustainCc cfg val s).RegsLegal := by
  unfold sustainCc
  split
  · exact h
  · exact mapVoices_regsLegal h fun _ => pedalUpVoice_noteLegal

theorem channelModeCc_regsLegal (c : Config) : (channelModeCc c s).RegsLegal :=
  mapVoices_regsLegal h fun _ _ => noteLegal_zero

theorem controlChange_regsLegal (ctl val : BitVec 7) : (controlChange cfg ctl val s).RegsLegal := by
  unfold controlChange
  dsimp only
  split_ifs
  · exact h
  · exact sustainCc_regsLegal h val
  · exact h
  · exact h
  · exact channelModeCc_regsLegal h cfg
  · exact h

theorem noteOffMsg_regsLegal {note : BitVec 7} {t : State} (ht : noteOffMsg cfg note s = .next t) : t.RegsLegal := by
  obtain ⟨-, rfl⟩ := noteOffMsg_eq_next.1 ht
  exact noteOff_regsLegal h note

theorem noteOnMsg_regsLegal {note vel : BitVec 7} {t : State} (ht : noteOnMsg cfg note vel s = .next t) :
    t.RegsLegal := by
  unfold noteOnMsg at ht
  split at ht
  · exact noteOffMsg_regsLegal h ht
  · obtain ⟨-, rfl⟩ := guarded_eq_next.1 ht
    exact noteOn_regsLegal h ..

theorem midiMessage_regsLegal {b0 b1 b2 : BitVec 8} {t : State} (ht : midiMessage cfg b0 b1 b2 s = .next t) :
    t.RegsLegal := by
  unfold midiMessage at ht
  dsimp only at ht
  split at ht
  · exact noteOffMsg_regsLegal h ht
  · exact noteOnMsg_regsLegal h ht
  · obtain rfl := Host.Outcome.next.inj ht
    exact controlChange_regsLegal h ..
  all_goals
    obtain rfl := Host.Outcome.next.inj ht
    exact h

theorem synthReset_regsLegal (c : Config) : (synthReset c s).RegsLegal where
  notes := notesLegal_map h.notes fun _ _ => noteLegal_zero
  lastNote := (by decide : (0 : Nat) < 128)
  lfoStep := (by decide : (0 : Int) ≤ 0 ∧ (0 : Int) ≤ cfg.lfoMax)
  ramp := Nat.zero_le _
  rate := h.rate

theorem lfoStep_regsLegal : (lfoStep cfg s).RegsLegal := by
  obtain ⟨hlo, hhi⟩ := h.lfoStep
  unfold lfoStep
  split
  · exact { h with
      notes := notesLegal_map h.notes fun _ hx => by rwa [tickVoice_note]
      lfoStep := ⟨Int.natCast_nonneg _, le_rfl⟩ }
  · exact { h with lfoStep := ⟨by dsimp only; omega, by dsimp only; omega⟩ }

theorem writeSample_regsLegal (stereo : Bool) (k : Nat) (l r : F32) : (writeSample stereo k l r s).RegsLegal := by
  rw [writeSample_frame]
  exact h

theorem sampleStep_regsLegal (stereo : Bool) (k : Nat) : (sampleStep cfg stereo k s).RegsLegal := by
  have hlfo : (lfoStep cfg { s with ng := noiseSeedNext cfg s.ng }).RegsLegal :=
    lfoStep_regsLegal (s := { s with ng := _ }) h
  exact writeSample_regsLegal (s := { lfoStep cfg { s with ng := noiseSeedNext cfg s.ng } with voices := _, sm := _ })
    { hlfo with
      notes := notesLegal_map (f := fun v => (mixVoice cfg _ v).1) hlfo.notes fun _ hx => by rwa [mixVoice_note]
      ramp := smNext_ramp hlfo.ramp } ..

theorem prologue_regsLegal (c : Config) : (prologue c s).RegsLegal :=
  { h with
    notes := notesLegal_map h.notes fun _ hx => by rwa [prologueVoice_note]
    ramp := smSet_ramp h.ramp _ }

end Operations

theorem sampleSteps_regsLegal (stereo : Bool) (count k : Nat) {s : State} (h : s.RegsLegal) :
    (sampleSteps cfg stereo count k s).RegsLegal := by
  induction count generalizing k s with
  | zero => exact h
  | succ n ih => exact ih (k + 1) (sampleStep_regsLegal h stereo k)

theorem renderBlock_regsLegal (stereo : Bool) (n : Nat) {s : State} (h : s.RegsLegal) :
    (renderBlock cfg stereo n s).RegsLegal := by
  have hsteps := sampleSteps_regsLegal stereo n 0 (prologue_regsLegal h cfg)
  exact { hsteps with
    notes := fun v => by
      rw [← State.voice_eq, renderBlock_voice]
      exact sweepVoice_noteLegal _ (hsteps.notes v) }

/-- Every instruction that answers a next state keeps the registers legal. -/
theorem exec_regsLegal {i : Instr} {s t : State} (hs : s.RegsLegal) (h : exec i s = .next t) : t.RegsLegal := by
  cases i with
  | reset => obtain ⟨-, rfl⟩ := guarded_eq_next.1 h; exact synthReset_regsLegal hs cfg
  | alloc =>
    obtain ⟨hrate, rfl⟩ := guarded_eq_next.1 h
    exact { hs with rate := rateRefusal_eq_none.1 hrate }
  | render => obtain ⟨-, rfl⟩ := execRenderIn_next h; exact renderBlock_regsLegal _ _ hs
  | midi => exact midiMessage_regsLegal hs h
  | midiCc => obtain rfl := Host.Outcome.next.inj h; exact controlChange_regsLegal hs ..
  | midiNoteOn => exact noteOnMsg_regsLegal hs h
  | midiNoteOff => exact noteOffMsg_regsLegal hs h
  | ccSustain => obtain rfl := Host.Outcome.next.inj h; exact sustainCc_regsLegal hs _
  | ccChannelMode => obtain rfl := Host.Outcome.next.inj h; exact channelModeCc_regsLegal hs cfg
  | envReset | envAttack | envRelease => obtain rfl := Host.Outcome.next.inj h; exact onEnv_regsLegal hs ..
  | envNext => obtain rfl := Host.Outcome.next.inj h; exact setResult_regsLegal (onEnv_regsLegal hs ..) _
  | oscReset => obtain rfl := Host.Outcome.next.inj h; exact onOsc_regsLegal hs ..
  | oscNext => obtain rfl := Host.Outcome.next.inj h; exact setResult_regsLegal (onOsc_regsLegal hs ..) _
  | oscSquare => obtain rfl := Host.Outcome.next.inj h; exact onOsc_regsLegal (onOsc_regsLegal hs ..) ..
  | fltReset | fltUpdate => obtain rfl := Host.Outcome.next.inj h; exact onFilter_regsLegal hs ..
  | fltRender => obtain rfl := Host.Outcome.next.inj h; exact setResult_regsLegal (onFilter_regsLegal hs ..) _
  | voiceReset => obtain rfl := Host.Outcome.next.inj h; exact setVoice_regsLegal hs _ noteLegal_zero
  | voiceRender v | voiceUpdateLfo v | voiceUpdatePan v | voiceRelease v =>
    obtain rfl := Host.Outcome.next.inj h; exact setVoice_regsLegal hs v (hs.notes v)
  | synUpdatePeriod v => obtain ⟨-, rfl⟩ := guarded_eq_next.1 h; exact setVoice_regsLegal hs v (hs.notes v)
  | synNoteOn => obtain ⟨-, rfl⟩ := guarded_eq_next.1 h; exact noteOn_regsLegal hs ..
  | synNoteOff => obtain ⟨-, rfl⟩ := guarded_eq_next.1 h; exact noteOff_regsLegal hs _
  | synStartVoice => obtain ⟨-, rfl⟩ := guarded_eq_next.1 h; exact startVoice_regsLegal hs ..
  | synRestartMono note =>
    obtain ⟨-, rfl⟩ := guarded_eq_next.1 h; exact restartMono_regsLegal hs cfg (noteLegal_noteReg note) _
  | synCalcPeriod => obtain ⟨-, rfl⟩ := guarded_eq_next.1 h; exact hs
  | synShiftQ => obtain rfl := Host.Outcome.next.inj h; exact shiftQ_regsLegal hs
  | synNextQ => obtain rfl := Host.Outcome.next.inj h; exact nextQPop_regsLegal hs
  | synLfoStep => obtain ⟨-, rfl⟩ := guarded_eq_next.1 h; exact lfoStep_regsLegal hs
  | smSet => obtain rfl := Host.Outcome.next.inj h; exact { hs with ramp := smSet_ramp hs.ramp _ }
  | smNext => obtain rfl := Host.Outcome.next.inj h; exact { hs with ramp := smNext_ramp hs.ramp }
  | _ => obtain rfl := Host.Outcome.next.inj h; exact hs

/-! ## Safe words -/

theorem safe_wordSafe (x : F32) : wordSafe (safe cfg x) = true := by
  unfold safe
  split_ifs with hspecial hzero hlow hhigh
  · decide
  · decide
  · decide
  · decide
  · have hx : x.isNaN = false := (Bool.or_eq_false_iff.1 (Bool.eq_false_iff.2 hspecial)).1
    have hlo : ¬ x.place < cfg.safeClamp.neg.place := by
      simpa [F32.lt_eq_place hx (b := cfg.safeClamp.neg) (by decide)] using hlow
    have hhi : ¬ cfg.safeClamp.place < x.place := by
      simpa [F32.gt, F32.lt_eq_place (a := cfg.safeClamp) (by decide) hx] using hhigh
    unfold wordSafe
    rw [F32.le_eq_place (by decide) hx, F32.le_eq_place hx (by decide), Bool.and_eq_true, decide_eq_true_iff,
      decide_eq_true_iff]
    exact ⟨not_lt.1 hlo, not_lt.1 hhi⟩

/-- A safety pass over the first `n` words makes a buffer safe whose other words are. -/
theorem safetyBuf_wordSafe {id : OutId} {n : Nat} {b : OutBuf} (hb : Memory.wf b) (hn : n ≤ cfg.outCapacity)
    (hrest : ∀ k x, n ≤ k → outWord? b k = some x → wordSafe x = true) :
    ∀ e ∈ safetyBuf cfg id n b, wordSafe e.2 = true := by
  rintro ⟨k, x⟩ he
  have hword := (mem_iff_outWord? (safetyBuf_wf hb hn)).1 he
  rw [outWord?_safetyBuf] at hword
  split at hword
  · obtain rfl := Option.some.inj hword
    exact safe_wordSafe _
  next hk => exact hrest k x (not_lt.1 hk) hword

/-- Mono sample steps do not write the right buffer (R217). -/
theorem sampleSteps_mono_outR (c : Config) (count k : Nat) (s : State) :
    (sampleSteps c false count k s).outR = s.outR := by
  induction count generalizing k s with
  | zero => rfl
  | succ n ih =>
    have hstep : (sampleStep c false k s).outR = s.outR := by
      unfold sampleStep
      dsimp only
      rw [lfoStep_frame]
      rfl
    exact (ih (k + 1) _).trans hstep

/-- A block leaves both buffers with safe words: its own went through the safety pass, the others stood there before. -/
theorem renderBlock_wordSafe (stereo : Bool) {n : Nat} (hn : n ≤ cfg.outCapacity) {s : State} (h : s.Inv) :
    (∀ e ∈ (renderBlock cfg stereo n s).outL, wordSafe e.2 = true) ∧
      ∀ e ∈ (renderBlock cfg stereo n s).outR, wordSafe e.2 = true := by
  have hwf := sampleSteps_wf (c := cfg) stereo n 0 (prologue cfg s) (by omega) h.outL_wf h.outR_wf
  have hother {k : Nat} (hk : n ≤ k) :=
    sampleSteps_word_other (c := cfg) (j := k) stereo n 0 (prologue cfg s) (by omega)
  refine ⟨safetyBuf_wordSafe hwf.1 hn fun k x hk hx => ?_, ?_⟩
  · exact h.outL_safe (k, x) (mem_of_outWord? ((hother hk).1.symm.trans hx))
  · cases stereo with
    | true =>
      refine safetyBuf_wordSafe hwf.2 hn fun k x hk hx => ?_
      exact h.outR_safe (k, x) (mem_of_outWord? ((hother hk).2.symm.trans hx))
    | false =>
      have hsame : (renderBlock cfg false n s).outR = s.outR := sampleSteps_mono_outR cfg n 0 _
      rw [hsame]
      exact h.outR_safe

/-! ## The buffers under every configuration -/

/-- Of the instructions only RENDER writes the output buffers, under every configuration. -/
theorem execIn_buffers {c : Config} {i : Instr} {s t : State} (h : execIn c i s = .next t) :
    (∃ stereo n, n ≤ c.outCapacity ∧ t = renderBlock c stereo n s) ∨ t.outL = s.outL ∧ t.outR = s.outR := by
  cases i with
  | render stereo n => exact .inl ⟨stereo, n.toNat, execRenderIn_next h⟩
  | midi => rw [midiMessage_frame h]; exact .inr ⟨rfl, rfl⟩
  | midiNoteOn => rw [noteOnMsg_eq_next h]; exact .inr ⟨rfl, rfl⟩
  | midiNoteOff => obtain ⟨-, rfl⟩ := noteOffMsg_eq_next.1 h; rw [noteOff_frame]; exact .inr ⟨rfl, rfl⟩
  | midiCc => obtain rfl := Host.Outcome.next.inj h; rw [controlChange_frame]; exact .inr ⟨rfl, rfl⟩
  | ccSustain => obtain rfl := Host.Outcome.next.inj h; rw [sustainCc_frame]; exact .inr ⟨rfl, rfl⟩
  | synNoteOn => obtain ⟨-, rfl⟩ := guarded_eq_next.1 h; rw [noteOn_frame]; exact .inr ⟨rfl, rfl⟩
  | synNoteOff => obtain ⟨-, rfl⟩ := guarded_eq_next.1 h; rw [noteOff_frame]; exact .inr ⟨rfl, rfl⟩
  | synLfoStep => obtain ⟨-, rfl⟩ := guarded_eq_next.1 h; rw [lfoStep_frame]; exact .inr ⟨rfl, rfl⟩
  | synNextQ => obtain rfl := Host.Outcome.next.inj h; rw [nextQPop_frame]; exact .inr ⟨rfl, rfl⟩
  | reset | alloc | synCalcPeriod | synStartVoice | synRestartMono | synUpdatePeriod =>
    obtain ⟨-, rfl⟩ := guarded_eq_next.1 h; exact .inr ⟨rfl, rfl⟩
  | _ => obtain rfl := Host.Outcome.next.inj h; exact .inr ⟨rfl, rfl⟩

/-- Every instruction keeps the canonical form of both buffers. -/
theorem execIn_wf {c : Config} {i : Instr} {s t : State} (hl : Memory.wfIn c s.outL) (hr : Memory.wfIn c s.outR)
    (h : execIn c i s = .next t) : Memory.wfIn c t.outL ∧ Memory.wfIn c t.outR := by
  rcases execIn_buffers h with ⟨stereo, n, hn, rfl⟩ | ⟨hL, hR⟩
  · exact renderBlock_wf stereo hn hl hr
  · rw [hL, hR]
    exact ⟨hl, hr⟩

/-- Every instruction keeps the words of both buffers safe. -/
theorem exec_wordSafe {i : Instr} {s t : State} (hs : s.Inv) (h : exec i s = .next t) :
    (∀ e ∈ t.outL, wordSafe e.2 = true) ∧ ∀ e ∈ t.outR, wordSafe e.2 = true := by
  rcases execIn_buffers ((execIn_cfg i s).trans h) with ⟨stereo, n, hn, rfl⟩ | ⟨hL, hR⟩
  · exact renderBlock_wordSafe stereo hn hs
  · rw [hL, hR]
    exact ⟨hs.outL_safe, hs.outR_safe⟩

/-! ## The step -/

theorem exec_inv {i : Instr} {s t : State} (hs : s.Inv) (h : exec i s = .next t) : t.Inv := by
  obtain ⟨hwfL, hwfR⟩ := execIn_wf hs.outL_wf hs.outR_wf ((execIn_cfg i s).trans h)
  obtain ⟨hsafeL, hsafeR⟩ := exec_wordSafe hs h
  obtain ⟨hnotes, hlast, hlfo, hramp, hrate⟩ := exec_regsLegal hs.regsLegal h
  exact ⟨hwfL, hwfR, hsafeL, hsafeR, hnotes, hlast, hlfo, hramp, hrate⟩

/-- A step that answers a next state waited at an empty port, or executed an instruction with its word taken away. -/
theorem stepIn_next {c : Config} {s t : State} (h : stepIn c s = .next t) :
    t = s ∨ ∃ i rest, execIn c i { s with port := rest } = .next t := by
  unfold stepIn at h
  split at h
  next => exact .inl (Host.Outcome.next.inj h).symm
  next w rest _ =>
    split at h
    next i _ => exact .inr ⟨i, rest, h⟩
    next => cases h

/-- Settles O7: a step waits or executes one instruction, and every instruction keeps legal registers, canonical buffers
and safe words. -/
theorem stepKeepsInvariant : Obligations.StepKeepsInvariant := by
  unfold Obligations.StepKeepsInvariant
  refine ⟨fun s t hs h => ?_, fun c s t hl hr h => ?_⟩
  · rcases stepIn_next ((stepIn_cfg s).trans h) with rfl | ⟨i, rest, hexec⟩
    · exact hs
    · exact exec_inv (s := { s with port := rest }) { hs with } ((execIn_cfg i _).symm.trans hexec)
  · rcases stepIn_next h with rfl | ⟨i, rest, hexec⟩
    · exact ⟨hl, hr⟩
    · exact execIn_wf (s := { s with port := rest }) hl hr hexec

end Sys2Proof.Machine
end

section
/-! SUPPORT and PROOFS. The decoder (spec 30_encoding.md R81 to R91): one equation for each format of a command, that
decoding undoes encoding, what the ignored bits and the rows with no effect leave, and the step as decode and exec. -/

namespace Sys2Proof.Machine

/-! ## Fields -/

/-- A field of a field. -/
theorem extract_extract {n s l s' l' : Nat} (x : BitVec n) (h : s' + l' ≤ l) :
    (x.extractLsb' s l).extractLsb' s' l' = x.extractLsb' (s + s') l' := by
  apply BitVec.eq_of_getLsbD_eq
  intro i hi
  have hi' : s' + i < l := by omega
  simp [hi, hi', Nat.add_assoc]

/-- A mask whose field is all ones leaves that field. -/
theorem extract_and_of_ones {n s l : Nat} {m : BitVec n} (x : BitVec n) (h : m.extractLsb' s l = BitVec.allOnes l) :
    (x &&& m).extractLsb' s l = x.extractLsb' s l := by
  rw [BitVec.extractLsb'_and, h, BitVec.and_allOnes]

theorem lowByte_append (x : BitVec 8) : (0#24 ++ x).extractLsb' 0 8 = x := BitVec.extractLsb'_append_eq_right

theorem lowBit_append (x : Bool) : (0#31 ++ BitVec.ofBool x).getLsbD 0 = x := by cases x <;> rfl

/-! ## One equation for each format -/

/-- The opcodes of commands that carry no operand: NOP, RESET, DEALLOC and the reserved ones (R82, R87). -/
abbrev IsBare (op : BitVec 8) : Prop := op = 0 ∨ op = 1 ∨ op = 3 ∨ 7 ≤ op.toNat

/-- The row of an opcode that carries no operand. -/
def bareRow (op : BitVec 8) : Instr :=
  if op.toNat = 0 then .nop
  else if op.toNat = 1 then .reset
  else if op.toNat = 3 then .dealloc
  else if op.toNat = 7 then .reserved07
  else if op.toNat < 0x10 then .reserved08 (op.extractLsb' 0 3)
  else if op.toNat < 0x20 then .reserved10 (op.extractLsb' 0 4)
  else if op.toNat < 0x40 then .reserved20 (op.extractLsb' 0 5)
  else if op.toNat < 0x80 then .reserved40 (op.extractLsb' 0 6)
  else .reserved80 (op.extractLsb' 0 7)

/-- The row of a MIDI message by its status nibble (R84). -/
def midiRow (c : Config) (status : BitVec 4) (d1 d2 : BitVec 7) : Instr :=
  match status.toNat with
  | 0x8 => .midiNoteOff d1
  | 0x9 => .midiNoteOn d1 d2
  | 0xA => .midiIgnoredA
  | 0xB => decodeCcIn c d1 d2
  | 0xC => .midiIgnoredC
  | 0xD => .midiPressure d1
  | 0xE => .midiBend d1 d2
  | 0xF => .midiIgnoredF
  | _ => .midiIgnored07 (status.extractLsb' 0 3)

/-- An opcode carries no operand, or is one of ALLOC, PSET, MIDI and RENDER. -/
theorem opcode_cases (op : BitVec 8) : IsBare op ∨ op = 2 ∨ op = 4 ∨ op = 5 ∨ op = 6 := by
  unfold IsBare
  revert op
  decide

section Command

variable (c : Config) {cmd : Word} (wdata : Word)

theorem decodeCommandIn_alloc (h : cmd.extractLsb' 24 8 = 2) :
    decodeCommandIn c cmd wdata = .alloc (cmd.extractLsb' 0 24) ⟨wdata⟩ := by
  rw [decodeCommandIn, h]; rfl

theorem decodeCommandIn_pset (h : cmd.extractLsb' 24 8 = 4) :
    decodeCommandIn c cmd wdata = decodePset (cmd.extractLsb' 0 8) wdata := by
  rw [decodeCommandIn, h]; rfl

theorem decodeMidiIn_eq_midiRow (b0 b1 b2 : BitVec 8) :
    decodeMidiIn c b0 b1 b2 = midiRow c (b0.extractLsb' 4 4) (b1.extractLsb' 0 7) (b2.extractLsb' 0 7) := by
  rw [midiRow, extract_extract b0 (by decide)]; rfl

theorem decodeCommandIn_midi (h : cmd.extractLsb' 24 8 = 5) :
    decodeCommandIn c cmd wdata =
      midiRow c (cmd.extractLsb' 20 4) (cmd.extractLsb' 8 7) (cmd.extractLsb' 0 7) := by
  have hm := decodeMidiIn_eq_midiRow c (cmd.extractLsb' 16 8) (cmd.extractLsb' 8 8) (cmd.extractLsb' 0 8)
  rw [extract_extract cmd (by decide), extract_extract cmd (by decide), extract_extract cmd (by decide)] at hm
  rw [decodeCommandIn, h]
  exact hm

theorem decodeCommandIn_render (h : cmd.extractLsb' 24 8 = 6) :
    decodeCommandIn c cmd wdata = .render (cmd.getLsbD 23) (cmd.extractLsb' 0 23) := by
  rw [decodeCommandIn, h]; rfl

theorem decodeCommandIn_bare (h : IsBare (cmd.extractLsb' 24 8)) :
    decodeCommandIn c cmd wdata = bareRow (cmd.extractLsb' 24 8) := by
  have hfield {l : Nat} (hl : 0 + l ≤ 8) : (cmd.extractLsb' 24 8).extractLsb' 0 l = cmd.extractLsb' 24 l :=
    extract_extract cmd hl
  rcases h with h | h | h | h
  · rw [decodeCommandIn, h]; rfl
  · rw [decodeCommandIn, h]; rfl
  · rw [decodeCommandIn, h]; rfl
  · rw [bareRow, hfield (by decide), hfield (by decide), hfield (by decide), hfield (by decide), hfield (by decide)]
    unfold decodeCommandIn
    split
    case h_8 e => rw [e]; rfl
    case h_9 _ h0 h1 _ h3 _ _ _ h7 => rw [if_neg h0, if_neg h1, if_neg h3, if_neg h7]
    all_goals omega

end Command

theorem decodePset_of_ge {idx : BitVec 8} (w : Word) (h : 27 ≤ idx.toNat) : decodePset idx w = .pset idx w := by
  unfold decodePset
  split
  case h_28 => rfl
  all_goals omega

/-- The nibbles 0 to 7 share one row, which keeps their low three bits (R84). -/
theorem midiRow_of_lt (c : Config) {status : BitVec 4} (d1 d2 : BitVec 7) (h : status.toNat < 8) :
    midiRow c status d1 d2 = .midiIgnored07 (status.extractLsb' 0 3) := by
  unfold midiRow
  split
  case h_9 => rfl
  all_goals omega

/-! ## Control changes -/

theorem isFreshController_iff {n : Nat} {others : List Nat} :
    isFreshController n others = true ↔ n < 128 ∧ n ∉ others := by
  simp [isFreshController, List.forall_mem_ne']

theorem isOtherControllerIn_iff {c : Config} {ctl : BitVec 7} :
    isOtherControllerIn c ctl = true ↔ ctl.toNat < c.ccChannelMode ∧ ctl.toNat ∉ namedControllers c := by
  simp [isOtherControllerIn, isFreshController_iff, ctl.isLt]

theorem notMem_namedControllers_iff {c : Config} {n : Nat} :
    n ∉ namedControllers c ↔ n ≠ c.ccModwheel ∧ n ≠ c.ccSustain ∧ n ≠ c.ccFilterPos ∧ n ≠ c.ccFilterNeg := by
  simp [namedControllers]

theorem decodeCcIn_channelMode {c : Config} {ctl : BitVec 7} (val : BitVec 7)
    (hnamed : ctl.toNat ∉ namedControllers c) (h : c.ccChannelMode ≤ ctl.toNat) :
    decodeCcIn c ctl val = .ccChannelMode (ctl.extractLsb' 0 3) := by
  simp [decodeCcIn, notMem_namedControllers_iff.1 hnamed, h]

theorem decodeCcIn_other {c : Config} {ctl : BitVec 7} (val : BitVec 7) (h : isOtherControllerIn c ctl = true) :
    decodeCcIn c ctl val = .ccOther ctl val := by
  obtain ⟨hlt, hnamed⟩ := isOtherControllerIn_iff.1 h
  simp [decodeCcIn, notMem_namedControllers_iff.1 hnamed, Nat.not_le.2 hlt]

/-! ## Decoding undoes encoding -/

/-- The word of an opcode without operands decodes to that opcode's row. -/
theorem decodeIn_bareWord (c : Config) {op : BitVec 8} {i : Instr} (h : IsBare op ∧ bareRow op = i) :
    decodeIn c (commandWord op 0 0) = .ok i := by
  obtain ⟨hbare, rfl⟩ := h
  have hop : (op ++ 0#24).extractLsb' 24 8 = op := BitVec.extractLsb'_append_eq_left
  show Except.ok (decodeCommandIn c (op ++ 0#24) 0) = _
  rw [decodeCommandIn_bare c 0 (hop.symm ▸ hbare), hop]

theorem decodeIn_midiWord_eq_midiRow (c : Config) (status : BitVec 4) (d1 d2 : BitVec 7) :
    decodeIn c (midiWord status d1 d2) = .ok (midiRow c status d1 d2) := decodeIn_midiWord c status d1 d2

theorem decodeIn_controlChange (c : Config) (ctl val : BitVec 7) :
    decodeIn c (midiWord 0xB ctl val) = .ok (decodeCcIn c ctl val) := decodeIn_midiWord c 0xB ctl val

theorem decodeIn_allocWord (c : Config) (blockSize : BitVec 24) (rate : F32) :
    decodeIn c (commandWord 0x02 blockSize rate.bits) = .ok (.alloc blockSize rate) :=
  congrArg Except.ok (decodeCommandIn_append c 0x02 blockSize rate.bits)

theorem decodeIn_renderWord (c : Config) (stereo : Bool) (n : BitVec 23) :
    decodeIn c (commandWord 0x06 (BitVec.ofBool stereo ++ n) 0) = .ok (.render stereo n) := by
  have hn : (BitVec.ofBool stereo ++ n).extractLsb' 0 23 = n := BitVec.extractLsb'_append_eq_right
  have hs : (BitVec.ofBool stereo ++ n).getLsbD 23 = stereo := by
    rw [bit_append_high _ _ le_rfl]; simp
  refine congrArg Except.ok ((decodeCommandIn_append c 0x06 (BitVec.ofBool stereo ++ n) 0).trans ?_)
  exact congrArg₂ Instr.render hs hn

theorem bareRow_reserved08 : ∀ low : BitVec 3,
    IsBare (0b00001#5 ++ low) ∧ bareRow (0b00001#5 ++ low) = .reserved08 low := by decide

theorem bareRow_reserved10 : ∀ low : BitVec 4,
    IsBare (0b0001#4 ++ low) ∧ bareRow (0b0001#4 ++ low) = .reserved10 low := by decide

theorem bareRow_reserved20 : ∀ low : BitVec 5,
    IsBare (0b001#3 ++ low) ∧ bareRow (0b001#3 ++ low) = .reserved20 low := by decide

theorem bareRow_reserved40 : ∀ low : BitVec 6,
    IsBare (0b01#2 ++ low) ∧ bareRow (0b01#2 ++ low) = .reserved40 low := by decide

theorem bareRow_reserved80 : ∀ low : BitVec 7,
    IsBare (0b1#1 ++ low) ∧ bareRow (0b1#1 ++ low) = .reserved80 low := by decide

theorem toNat_lowStatus : ∀ status : BitVec 3, (0#1 ++ status).toNat < 8 := by decide

theorem toNat_channelMode : ∀ low : BitVec 3, (0b1111#4 ++ low).toNat = 120 + low.toNat := by decide

theorem decodeIn_encodeIn {c : Config} {i : Instr} (h : i.wellFormedIn c = true) :
    decodeIn c (encodeIn c i) = .ok i := by
  cases i with
  | midi | midiCc => cases h
  | nop | reset | dealloc | reserved07 => exact decodeIn_bareWord c (by decide)
  | reserved08 low => exact decodeIn_bareWord c (bareRow_reserved08 low)
  | reserved10 low => exact decodeIn_bareWord c (bareRow_reserved10 low)
  | reserved20 low => exact decodeIn_bareWord c (bareRow_reserved20 low)
  | reserved40 low => exact decodeIn_bareWord c (bareRow_reserved40 low)
  | reserved80 low => exact decodeIn_bareWord c (bareRow_reserved80 low)
  | alloc blockSize rate => exact decodeIn_allocWord c blockSize rate
  | render stereo n => exact decodeIn_renderWord c stereo n
  | pset idx w => exact (decodeIn_psetWord c idx w).trans (congrArg _ (decodePset_of_ge w (of_decide_eq_true h)))
  | psetNumVoices x =>
    exact (decodeIn_psetWord c 8 _).trans (congrArg (Except.ok ∘ Instr.psetNumVoices) (lowByte_append x))
  | psetGlideMode x =>
    exact (decodeIn_psetWord c 16 _).trans (congrArg (Except.ok ∘ Instr.psetGlideMode) (lowByte_append x))
  | psetIgnoreVelocity x =>
    exact (decodeIn_psetWord c 12 _).trans (congrArg (Except.ok ∘ Instr.psetIgnoreVelocity) (lowBit_append x))
  | psetNoiseMix | psetEnvAttack | psetEnvDecay | psetEnvSustain | psetEnvRelease | psetOscMix | psetDetune | psetTune
  | psetVolumeTrim | psetOutputLevel | psetVelocitySensitivity | psetLfoInc | psetVibrato | psetPwmDepth
  | psetGlideRate | psetGlideBend | psetFilterKeyTracking | psetFilterQ | psetFilterLFODepth | psetFilterAttack
  | psetFilterDecay | psetFilterSustain | psetFilterRelease | psetFilterEnvDepth => exact decodeIn_psetWord c _ _
  | midiNoteOff | midiNoteOn | midiPressure | midiBend | midiIgnoredA | midiIgnoredC | midiIgnoredF =>
    exact decodeIn_midiWord c _ _ _
  | midiIgnored07 status =>
    rw [encodeIn, decodeIn_midiWord_eq_midiRow, midiRow_of_lt c 0 0 (toNat_lowStatus status),
      BitVec.extractLsb'_append_eq_right]
  | ccModWheel | ccSustain | ccFilterPos | ccFilterNeg =>
    obtain ⟨hlt, hne⟩ := isFreshController_iff.1 h
    simp only [List.mem_cons, List.not_mem_nil, or_false, not_or] at hne
    rw [encodeIn, ccWord, decodeIn_controlChange]
    simp [decodeCcIn, Nat.mod_eq_of_lt hlt, hne]
  | ccChannelMode low =>
    obtain ⟨hmode, hfresh⟩ := Bool.and_eq_true_iff.1 h
    rw [← toNat_channelMode] at hmode hfresh
    obtain ⟨-, hnamed⟩ := isFreshController_iff.1 hfresh
    rw [encodeIn, decodeIn_controlChange, decodeCcIn_channelMode 0 hnamed (of_decide_eq_true hmode),
      BitVec.extractLsb'_append_eq_right]
  | ccOther ctl val => rw [encodeIn, decodeIn_controlChange, decodeCcIn_other val h]
  | _ =>
    -- the micro-operations: the `selLine_` lemmas read each field back from the select line
    simp [encodeIn, setWord, noteWord, decodeIn, decodeSelect, unusedLine]

/-- Settles O8: format by format, decoding reads the fields that encoding wrote. -/
theorem decodeEncodeRoundTrip : Obligations.DecodeEncodeRoundTrip := by
  unfold Obligations.DecodeEncodeRoundTrip
  exact ⟨fun _ => decodeIn_encodeIn, fun _ _ => decodeIn_encodeIn⟩

/-! ## Every word decodes, to a well-formed instruction -/

theorem bareRow_wellFormed (op : BitVec 8) : (bareRow op).wellFormed = true := by
  unfold bareRow
  split_ifs <;> rfl

theorem decodePset_wellFormed (idx : BitVec 8) (wdata : Word) : (decodePset idx wdata).wellFormed = true := by
  unfold decodePset
  split
  case h_28 =>
    simp only [imp_false] at *
    exact decide_eq_true (by omega)
  all_goals rfl

theorem ccChannelMode_wellFormed : ∀ low : BitVec 3, (Instr.ccChannelMode low).wellFormed = true := by decide

theorem decodeCcIn_wellFormed (ctl val : BitVec 7) : (decodeCcIn cfg ctl val).wellFormed = true := by
  unfold decodeCcIn
  split_ifs with h1 h2 h3 h4 hmode
  · rfl
  · rfl
  · rfl
  · rfl
  · exact ccChannelMode_wellFormed _
  · exact isOtherControllerIn_iff.2 ⟨Nat.lt_of_not_le hmode, notMem_namedControllers_iff.2 ⟨h1, h2, h3, h4⟩⟩

theorem midiRow_wellFormed (status : BitVec 4) (d1 d2 : BitVec 7) : (midiRow cfg status d1 d2).wellFormed = true := by
  unfold midiRow
  split
  case h_4 => exact decodeCcIn_wellFormed d1 d2
  all_goals rfl

theorem decodeCommand_wellFormed (cmd wdata : Word) : (decodeCommand cmd wdata).wellFormed = true := by
  unfold decodeCommand
  rcases opcode_cases (cmd.extractLsb' 24 8) with h | h | h | h | h
  · rw [decodeCommandIn_bare cfg wdata h]; exact bareRow_wellFormed _
  · rw [decodeCommandIn_alloc cfg wdata h]; rfl
  · rw [decodeCommandIn_pset cfg wdata h]; exact decodePset_wellFormed _ _
  · rw [decodeCommandIn_midi cfg wdata h]; exact midiRow_wellFormed _ _ _
  · rw [decodeCommandIn_render cfg wdata h]; rfl

/-- Settles O9: a command by its format; a select code by the arm of the decoder that names it, or the last one. -/
theorem decodingIsTotal : Obligations.DecodingIsTotal := by
  unfold Obligations.DecodingIsTotal
  refine ⟨fun cmd wdata => ⟨_, rfl, decodeCommand_wellFormed cmd wdata⟩, fun code o => ?_⟩
  show (_ → ∃ i, decodeSelect code o = .ok i ∧ _) ∧ (_ → decodeSelect code o = _)
  unfold decodeSelect
  split
  case h_34 =>
    refine ⟨fun hmem => ?_, fun _ => rfl⟩
    simp only [imp_false] at *
    simp only [List.cons_append, List.nil_append, List.mem_cons, List.not_mem_nil, or_false] at hmem
    omega
  all_goals
    rename_i h
    exact ⟨fun _ => ⟨_, rfl, rfl⟩, fun hmem => absurd (by rw [h]; decide) hmem⟩

/-! ## Ignored bits -/

/-- No format but those of ALLOC and PSET has a field of the data word (R81). -/
theorem decodeCommandIn_wdata (c : Config) {cmd : Word} (wdata wdata' : Word) (halloc : cmd.extractLsb' 24 8 ≠ 2)
    (hpset : cmd.extractLsb' 24 8 ≠ 4) : decodeCommandIn c cmd wdata = decodeCommandIn c cmd wdata' := by
  rcases opcode_cases (cmd.extractLsb' 24 8) with h | h | h | h | h
  · rw [decodeCommandIn_bare c wdata h, decodeCommandIn_bare c wdata' h]
  · exact absurd h halloc
  · exact absurd h hpset
  · rw [decodeCommandIn_midi c wdata h, decodeCommandIn_midi c wdata' h]
  · rw [decodeCommandIn_render c wdata h, decodeCommandIn_render c wdata' h]

theorem decodeCommandIn_bare_mask (c : Config) {cmd : Word} (wdata wdata' : Word) (h : IsBare (cmd.extractLsb' 24 8)) :
    decodeCommandIn c cmd wdata = decodeCommandIn c (cmd &&& 0xFF000000) wdata' := by
  have hop : (cmd &&& 0xFF000000).extractLsb' 24 8 = cmd.extractLsb' 24 8 := extract_and_of_ones cmd (by decide)
  rw [decodeCommandIn_bare c wdata h, decodeCommandIn_bare c wdata' (hop.symm ▸ h), hop]

theorem decodeCommandIn_pset_mask (c : Config) {cmd : Word} (wdata : Word) (h : cmd.extractLsb' 24 8 = 4) :
    decodeCommandIn c cmd wdata = decodeCommandIn c (cmd &&& 0xFF0000FF) wdata := by
  have hop : (cmd &&& 0xFF0000FF).extractLsb' 24 8 = cmd.extractLsb' 24 8 := extract_and_of_ones cmd (by decide)
  rw [decodeCommandIn_pset c wdata h, decodeCommandIn_pset c wdata (hop.trans h), extract_and_of_ones cmd (by decide)]

theorem decodePset_byte_mask {idx : BitVec 8} (wdata : Word) (h : idx = 8 ∨ idx = 16) :
    decodePset idx wdata = decodePset idx (wdata &&& 0xFF) := by
  have hbyte : (wdata &&& 0xFF).extractLsb' 0 8 = wdata.extractLsb' 0 8 := extract_and_of_ones wdata (by decide)
  rcases h with rfl | rfl
  · exact congrArg Instr.psetNumVoices hbyte.symm
  · exact congrArg Instr.psetGlideMode hbyte.symm

theorem decodePset_bit_mask (wdata : Word) : decodePset 12 wdata = decodePset 12 (wdata &&& 1) :=
  congrArg Instr.psetIgnoreVelocity (by simp)

theorem decodeCommandIn_midi_mask (c : Config) {cmd : Word} (wdata wdata' : Word) (h : cmd.extractLsb' 24 8 = 5) :
    decodeCommandIn c cmd wdata = decodeCommandIn c (cmd &&& 0xFFF07F7F) wdata' := by
  have hop : (cmd &&& 0xFFF07F7F).extractLsb' 24 8 = cmd.extractLsb' 24 8 := extract_and_of_ones cmd (by decide)
  rw [decodeCommandIn_midi c wdata h, decodeCommandIn_midi c wdata' (hop.trans h), extract_and_of_ones cmd (by decide),
    extract_and_of_ones cmd (by decide), extract_and_of_ones cmd (by decide)]

/-- Settles O10: the mask of each format leaves every field that the format's equation reads. -/
theorem ignoredBitsAreIgnored : Obligations.IgnoredBitsAreIgnored := by
  unfold Obligations.IgnoredBitsAreIgnored decodeCommand
  intro cmd wdata wdata'
  refine ⟨decodeCommandIn_wdata cfg wdata wdata', decodeCommandIn_bare_mask cfg wdata wdata',
    fun h => ⟨?_, ?_, ?_⟩, decodeCommandIn_midi_mask cfg wdata wdata'⟩
  · exact decodeCommandIn_pset_mask cfg wdata h
  · intro hidx
    rw [decodeCommandIn_pset cfg wdata h, decodePset_byte_mask wdata hidx, decodeCommandIn_pset cfg _ h]
  · intro hidx
    rw [decodeCommandIn_pset cfg wdata h, decodeCommandIn_pset cfg _ h, hidx, decodePset_bit_mask]

/-! ## Rows with no effect -/

theorem psetByIndex_of_ge (p : Params) {idx : BitVec 8} (wdata : Word) (h : 27 ≤ idx.toNat) :
    psetByIndex p idx wdata = p := by
  unfold psetByIndex
  split
  case h_28 => rfl
  all_goals omega

theorem exec_pset_of_ge {idx : BitVec 8} (wdata : Word) (s : State) (h : 27 ≤ idx.toNat) :
    exec (.pset idx wdata) s = .next s := by
  rw [exec_pset, execPset, psetByIndex_of_ge s.p wdata h]

/-- Opcode 0 and the opcodes from 7 on execute to the state itself (R87, R300). -/
theorem exec_bareRow {op : BitVec 8} (s : State) (h : op.toNat = 0 ∨ 7 ≤ op.toNat) :
    exec (bareRow op) s = .next s := by
  unfold bareRow
  split_ifs with h0 h1 h3
  · rfl
  · omega
  · omega
  all_goals rfl

theorem exec_decodeCommand_bare (cmd wdata : Word) (s : State)
    (h : (cmd.extractLsb' 24 8).toNat = 0 ∨ 7 ≤ (cmd.extractLsb' 24 8).toNat) :
    exec (decodeCommand cmd wdata) s = .next s := by
  have hbare : IsBare (cmd.extractLsb' 24 8) := h.imp (BitVec.eq_of_toNat_eq ·) (.inr ∘ .inr)
  rw [decodeCommand, decodeCommandIn_bare cfg wdata hbare, exec_bareRow s h]

theorem exec_midiRow_ignored {status : BitVec 4} (d1 d2 : BitVec 7) (s : State)
    (h : status.toNat < 8 ∨ status = 0xA ∨ status = 0xC ∨ status = 0xF) :
    exec (midiRow cfg status d1 d2) s = .next s := by
  rcases h with h | rfl | rfl | rfl
  · rw [midiRow_of_lt cfg d1 d2 h]; rfl
  · rfl
  · rfl
  · rfl

theorem exec_midiRow_otherController {ctl : BitVec 7} (val : BitVec 7) (s : State) (h : isOtherController ctl = true) :
    exec (midiRow cfg 0xB ctl val) s = .next s :=
  congrArg (exec · s) (decodeCcIn_other val h)

/-- Settles O17: each such word decodes to a row whose meaning answers the state itself. -/
theorem noEffectEncodings : Obligations.NoEffectEncodings := by
  unfold Obligations.NoEffectEncodings
  refine ⟨fun s => ?_, fun cmd wdata s => ⟨exec_decodeCommand_bare cmd wdata s, fun h hidx => ?_, fun h hst => ?_,
    fun h hst hctl => ?_⟩⟩
  · exact ⟨rfl, rfl, fun _ => rfl, fun _ => rfl, fun _ => rfl, fun _ => rfl, fun _ => rfl, fun _ => rfl, rfl, rfl,
      rfl, fun _ _ => rfl, fun _ wdata h => exec_pset_of_ge wdata s h⟩
  · rw [decodeCommand, decodeCommandIn_pset cfg wdata h, decodePset_of_ge wdata hidx, exec_pset_of_ge wdata s hidx]
  · rw [decodeCommand, decodeCommandIn_midi cfg wdata h, exec_midiRow_ignored _ _ s hst]
  · rw [decodeCommand, decodeCommandIn_midi cfg wdata h, hst, exec_midiRow_otherController _ s hctl]

/-! ## The step -/

theorem stepIn_of_decodeIn {c : Config} {s : State} {w : PortWord} {rest : List PortWord} {i : Instr}
    (hp : s.port = w :: rest) (hd : decodeIn c w = .ok i) : stepIn c s = execIn c i { s with port := rest } := by
  simp only [stepIn, hp, hd]

theorem stepIn_of_port_nil (c : Config) {s : State} (hp : s.port = []) : stepIn c s = .next s := by
  simp only [stepIn, hp]

theorem step_of_unassigned {s : State} {w : PortWord} {rest : List PortWord} {code : BitVec 8}
    (hp : s.port = w :: rest) (hd : decode w = .error (.unassignedSelectCode code)) :
    step s = .refused (.unassignedSelectCode code) := by
  simp only [step, hp, hd]

/-- Settles O12: the arms of the step one by one; at `cfg` the machine of any configuration is the machine in force. -/
theorem stepExecutesOldestWord : Obligations.StepExecutesOldestWord := by
  unfold Obligations.StepExecutesOldestWord
  exact ⟨fun _ _ _ _ => step_of_decode, fun s hp => (stepIn_cfg s).symm.trans (stepIn_of_port_nil cfg hp),
    fun _ _ _ _ => step_of_unassigned, fun _ _ _ _ _ => stepIn_of_decodeIn, fun c _ => stepIn_of_port_nil c,
    execIn_cfg, stepIn_cfg⟩

end Sys2Proof.Machine
end

section
/-! SUPPORT and PROOFS. The noise generator (spec 40_noise.md R110, R111): sums that need no rounding, and the sample
as the difference of a value in [2, 4) and 3.0. -/

namespace Sys2Proof
open Machine

/-! ## Exact sums -/

/-- The magnitude at or below a whole number of at most 24 significant bits has that number as its units. -/
theorem F32.units_floorMag_short {n : Nat} (k : Nat) (hn : n < 2 ^ 24) :
    F32.unitsOfMag (F32.floorMag (n * 2 ^ k) 1) = n * 2 ^ k := by
  have hexp : F32.roundExp (n * 2 ^ k) 1 ≤ k := by
    rcases Nat.eq_zero_or_pos n with rfl | hpos
    · simp [F32.roundExp]
    · have hlog : Nat.log2 (n * 2 ^ k) < 24 + k :=
        (Nat.log2_lt (by positivity)).2 (by rw [pow_add]; exact Nat.mul_lt_mul_of_pos_right hn (by positivity))
      rw [F32.roundExp, Nat.div_one]
      omega
  rw [F32.units_floorMag, one_mul]
  exact Nat.div_mul_cancel ((Nat.pow_dvd_pow 2 hexp).mul_left n)

/-- A whole number of at most 24 significant bits is the value of a finite operand. -/
theorem F32.exists_units_eq {n : Int} {k : Nat} (hn : n.natAbs < 2 ^ 24) (hk : k ≤ 253) :
    ∃ y : F32, y.isFinite = true ∧ y.units = n * 2 ^ k := by
  have hunits := F32.units_floorMag_short k hn
  have hfin : F32.floorMag (n.natAbs * 2 ^ k) 1 < F32.infMag := by
    rw [← F32.unitsOfMag_lt_iff, hunits]
    calc n.natAbs * 2 ^ k < 2 ^ 24 * 2 ^ k := Nat.mul_lt_mul_of_pos_right hn (by positivity)
      _ ≤ 2 ^ 24 * 2 ^ 253 := Nat.mul_le_mul_left _ (Nat.pow_le_pow_right (by decide) hk)
      _ = F32.unitsOfMag F32.infMag := by decide
  have hlt := hfin.trans (show F32.infMag < 2 ^ 31 by decide)
  refine ⟨F32.ofSignMag (decide (n < 0)) (F32.floorMag (n.natAbs * 2 ^ k) 1), ?_, ?_⟩
  · rwa [F32.isFinite_iff, F32.mag_ofSignMag _ hlt]
  · rw [F32.units, F32.absUnits, F32.sign_ofSignMag _ hlt, F32.mag_ofSignMag _ hlt, hunits]
    push_cast
    by_cases hneg : n < 0
    · simp [hneg, abs_of_neg]
    · simp [hneg, abs_of_nonneg (not_lt.1 hneg)]

/-- A sum that is the value of a finite operand is not rounded. -/
theorem F32.add_exact {a b y : F32} (ha : a.isFinite = true) (hb : b.isFinite = true) (hy : y.isFinite = true)
    (hsum : a.units + b.units = y.units) : (a.add b).isFinite = true ∧ (a.add b).units = y.units := by
  have hplace : (a.add b).place = y.place := by
    rw [F32.place_add ha hb]
    exact le_antisymm (F32.roundPlace_le_place Nat.one_pos hy (by simp [hsum]))
      (F32.place_le_roundPlace Nat.one_pos hy (by simp [hsum]))
  obtain ⟨hlo, hhi⟩ := F32.place_bounds hy
  exact ⟨F32.isFinite_of_place (hplace ▸ hlo) (hplace ▸ hhi),
    le_antisymm (F32.units_le_iff.2 hplace.le) (F32.units_le_iff.2 hplace.ge)⟩

/-! ## The sample -/

/-- The masked seed plus the bias is the pattern of exponent 128: sign 0, and the low 23 bits of the seed as fraction. -/
theorem toNat_noisePattern (seed : Word) :
    ((seed &&& 0x007FFFFF) + 0x40000000).toNat = 128 * 2 ^ 23 + seed.toNat % 2 ^ 23 := by
  have hmask : (seed &&& 0x007FFFFF).toNat = seed.toNat % 2 ^ 23 := by
    rw [BitVec.toNat_and]
    exact Nat.and_two_pow_sub_one_eq_mod seed.toNat 23
  rw [BitVec.toNat_add, hmask, show (0x40000000 : Word).toNat = 128 * 2 ^ 23 from rfl]
  omega

/-- A pattern of exponent 128 is a value in [2, 4). -/
theorem F32.units_of_exponent_128 {w : Word} {f : Nat} (hf : f < 2 ^ 23) (hw : w.toNat = 128 * 2 ^ 23 + f) :
    (F32.mk w).isFinite = true ∧ (F32.mk w).units = (2 ^ 23 + f : Int) * 2 ^ 127 := by
  have hmag : (F32.mk w).mag = 127 * 2 ^ 23 + (2 ^ 23 + f) := by
    rw [F32.mag, hw]
    omega
  have hsign : (F32.mk w).sign = false := by
    rw [F32.sign, BitVec.msb_eq_decide, decide_eq_false_iff_not, hw]
    omega
  refine ⟨?_, ?_⟩
  · rw [F32.isFinite_iff, hmag, F32.infMag_eq]
    omega
  · rw [F32.units_of_not_sign hsign, F32.absUnits, hmag, F32.unitsOfMag_split (by omega) (by omega)]
    push_cast
    rfl

/-- The sample is exact: the low 23 bits of the new seed times 2^-22, minus one, with no rounding (R111). -/
theorem noiseSample_exact (seed : Word) :
    (noiseSample cfg seed).isFinite = true ∧
      (noiseSample cfg seed).units = (seed.toNat % 2 ^ 23 : Int) * 2 ^ 127 - 2 ^ 149 := by
  have hf : seed.toNat % 2 ^ 23 < 2 ^ 23 := Nat.mod_lt _ (by decide)
  obtain ⟨hfin, hunits⟩ := F32.units_of_exponent_128 hf (toNat_noisePattern seed)
  obtain ⟨hfin3, hunits3⟩ := F32.units_of_exponent_128 (w := 0x40400000) (f := 2 ^ 22) (by decide) rfl
  obtain ⟨y, hy, hyu⟩ := F32.exists_units_eq (n := (seed.toNat % 2 ^ 23 : Nat) - 2 ^ 22) (k := 127) (by omega) (by decide)
  have hsum : (F32.mk ((seed &&& 0x007FFFFF) + 0x40000000)).units + (F32.mk 0x40400000).neg.units = y.units := by
    rw [F32.units_neg, hunits, hunits3, hyu]
    push_cast
    ring
  obtain ⟨hsubfin, hsub⟩ := F32.add_exact hfin (by rwa [F32.isFinite_neg]) hy hsum
  refine ⟨hsubfin, hsub.trans ?_⟩
  rw [hyu]
  push_cast
  ring

/-! ## The operations -/

/-- Adding a bias that shares no bit with the mask is the OR of R16 (b). -/
theorem mask_add_eq_or (seed mask bias : Word) (h : mask &&& bias = 0) :
    (seed &&& mask) + bias = (seed &&& mask) ||| bias :=
  BitVec.add_eq_or_of_and_eq_zero _ _ (by rw [BitVec.and_assoc, h]; simp)

theorem execIn_ngNext (c : Config) (s : State) :
    execIn c .ngNext s =
      .next { s with ng := noiseSeedNext c s.ng, result := .f32 (noiseSample c (noiseSeedNext c s.ng)) } := rfl

/-- Settles O27: each operation is its definition at every configuration; with the constants in force the sample
is a difference that needs no rounding. -/
theorem noiseGenerator : Obligations.NoiseGenerator := by
  unfold Obligations.NoiseGenerator
  intro s
  obtain ⟨hfin, hunits⟩ := noiseSample_exact (noiseSeedNext cfg s.ng)
  refine ⟨rfl, noiseSample cfg (noiseSeedNext cfg s.ng), ?_, rfl, hfin, hunits, fun c => ⟨rfl, execIn_ngNext c s, ?_⟩⟩
  · rw [← execIn_cfg, execIn_ngNext]
    rfl
  · exact mask_add_eq_or _ c.noiseMask c.noiseBias

end Sys2Proof
end

section
/-! SUPPORT and PROOFS. The envelope (spec 41_envelope.md R120 to R127): a multiplier in `[0, 1)` moves the level
towards the target without passing it, so legal registers stay legal. -/

namespace Sys2Proof
open Machine

/-! ## Rounding keeps bounds that are values -/

section RoundedPlace
variable {c r : F32} {num : Int} {den : Nat} (hd : 0 < den) (hc : c.isFinite = true)
  (hr : r.place = F32.roundPlace num den)
include hd hc hr

theorem F32.units_le_of_place (h : c.units * den ≤ num) : c.units ≤ r.units :=
  F32.units_le_iff.2 (hr ▸ F32.place_le_roundPlace hd hc h)

theorem F32.units_ge_of_place (h : num ≤ c.units * den) : r.units ≤ c.units :=
  F32.units_le_iff.2 (hr ▸ F32.roundPlace_le_place hd hc h)

end RoundedPlace

section RoundedSign
variable {r : F32} {num : Int} {den : Nat} (hd : 0 < den) (hr : r.place = F32.roundPlace num den)
include hd hr

theorem F32.units_nonneg_of_place (h : 0 ≤ num) : 0 ≤ r.units :=
  F32.units_le_of_place (c := F32.zero) hd rfl hr (by simpa [F32.units_of_isZero (x := F32.zero) rfl] using h)

theorem F32.units_nonpos_of_place (h : num ≤ 0) : r.units ≤ 0 :=
  F32.units_ge_of_place (c := F32.zero) hd rfl hr (by simpa [F32.units_of_isZero (x := F32.zero) rfl] using h)

end RoundedSign

/-- What lies between finite values is finite. -/
theorem F32.isFinite_of_units {lo x hi : F32} (hlo : lo.isFinite = true) (hhi : hi.isFinite = true)
    (h1 : lo.units ≤ x.units) (h2 : x.units ≤ hi.units) : x.isFinite = true :=
  F32.isFinite_of_place ((F32.place_bounds hlo).1.trans_le (F32.units_le_iff.1 h1))
    ((F32.units_le_iff.1 h2).trans_lt (F32.place_bounds hhi).2)

/-! ## Intervals -/

theorem F32.not_isNaN_of_le {a b : F32} (h : a.le b = true) : a.isNaN = false ∧ b.isNaN = false := by
  simp only [F32.le, Bool.and_eq_true, Bool.not_eq_true'] at h
  exact h.1

/-- A closed interval with finite ends, in units. -/
theorem F32.mem_Icc_iff {lo x hi : F32} (hlo : lo.isFinite = true) (hhi : hi.isFinite = true) :
    (x.ge lo = true ∧ x.le hi = true) ↔ x.isFinite = true ∧ lo.units ≤ x.units ∧ x.units ≤ hi.units := by
  have hnlo := F32.not_isNaN_of_finite hlo
  have hnhi := F32.not_isNaN_of_finite hhi
  constructor
  · rintro ⟨hge, hle⟩
    have hx := (F32.not_isNaN_of_le hle).1
    have h1 := (F32.le_iff_units hnlo hx).1 hge
    have h2 := (F32.le_iff_units hx hnhi).1 hle
    exact ⟨F32.isFinite_of_units hlo hhi h1 h2, h1, h2⟩
  · rintro ⟨hfin, h1, h2⟩
    have hx := F32.not_isNaN_of_finite hfin
    exact ⟨(F32.le_iff_units hnlo hx).2 h1, (F32.le_iff_units hx hnhi).2 h2⟩

/-- A half-open interval with finite ends, in units. -/
theorem F32.units_of_mem_Ico {lo x hi : F32} (hlo : lo.isFinite = true) (hhi : hi.isFinite = true)
    (hge : x.ge lo = true) (hlt : x.lt hi = true) :
    x.isFinite = true ∧ lo.units ≤ x.units ∧ x.units < hi.units := by
  have hx := (F32.not_isNaN_of_le hge).2
  have h1 := (F32.le_iff_units (F32.not_isNaN_of_finite hlo) hx).1 hge
  have h2 := (F32.lt_iff_units hx (F32.not_isNaN_of_finite hhi)).1 hlt
  exact ⟨F32.isFinite_of_units hlo hhi h1 h2.le, h1, h2⟩

/-! ## A factor below one -/

/-- Up to twice the smallest normal value a magnitude is its units. -/
theorem F32.unitsOfMag_of_le {m : Nat} (hm : m ≤ 2 ^ 24) : F32.unitsOfMag m = m := by
  simpa using F32.unitsOfMag_split (k := 0) (.inl rfl) hm

/-- Above the subnormals the step between neighbouring values is less than 2^-23 of the upper one. -/
theorem F32.unitsOfMag_gap_lt {m : Nat} (hm : 2 ^ 23 ≤ m) :
    2 ^ 23 * F32.unitsOfMag (m + 1) < F32.unitsOfMag (m + 1) + 2 ^ 23 * F32.unitsOfMag m := by
  obtain ⟨k, q, rfl, hlow, hhigh⟩ : ∃ k q, m = k * 2 ^ 23 + q ∧ 2 ^ 23 ≤ q ∧ q < 2 ^ 24 :=
    ⟨m / 2 ^ 23 - 1, 2 ^ 23 + m % 2 ^ 23, by omega, by omega, by omega⟩
  rw [Nat.add_assoc, F32.unitsOfMag_split (.inr hlow) (by omega), F32.unitsOfMag_split (.inr (by omega)) (by omega)]
  have hstep : 2 ^ 23 * 2 ^ k < (q + 1) * 2 ^ k := Nat.mul_lt_mul_of_pos_right (by omega) (by positivity)
  calc 2 ^ 23 * ((q + 1) * 2 ^ k) = 2 ^ 23 * 2 ^ k + 2 ^ 23 * (q * 2 ^ k) := by ring
    _ < _ := Nat.add_lt_add_right hstep _

/-- A value below 1.0 is at most 1.0 - 2^-24; 1.0 is 2^149 units. -/
theorem F32.unitsOfMag_le_of_lt_one {m : Nat} (h : F32.unitsOfMag m < 2 ^ 149) :
    F32.unitsOfMag m ≤ 2 ^ 149 - 2 ^ 125 := by
  have hone : F32.unitsOfMag 0x3F800000 = 2 ^ 149 := by decide
  rw [← hone, F32.unitsOfMag_lt_iff] at h
  calc F32.unitsOfMag m ≤ F32.unitsOfMag 0x3F7FFFFF := F32.unitsOfMag_le_iff.2 (by omega)
    _ = 2 ^ 149 - 2 ^ 125 := by decide

/-- A value times a factor below one rounds to a smaller magnitude, or to itself when it is no larger than the smallest
normal value. -/
theorem F32.roundMag_mul_lt {x d : Nat} (hx : F32.unitsOfMag x < 2 ^ 149) (hd : d < F32.infMag) :
    F32.roundMag (F32.unitsOfMag x * F32.unitsOfMag d) (2 ^ 149) < d ∨
      F32.roundMag (F32.unitsOfMag x * F32.unitsOfMag d) (2 ^ 149) = d ∧ d ≤ 2 ^ 23 := by
  have hprod : F32.unitsOfMag x * F32.unitsOfMag d ≤ (2 ^ 149 - 2 ^ 125) * F32.unitsOfMag d :=
    Nat.mul_le_mul_right _ (F32.unitsOfMag_le_of_lt_one hx)
  have hle : F32.roundMag (F32.unitsOfMag x * F32.unitsOfMag d) (2 ^ 149) ≤ d := by
    conv_rhs => rw [← F32.roundMag_exact (m := d) (den := 2 ^ 149) (by decide) hd.le]
    exact F32.roundMag_mono (by decide) (by decide) (Nat.mul_le_mul_right _ (by omega))
  refine hle.lt_or_eq.imp_right fun heq => ⟨heq, ?_⟩
  by_contra hbig
  obtain ⟨m, rfl⟩ : ∃ m, d = m + 1 := ⟨d - 1, by omega⟩
  have hgap := F32.unitsOfMag_gap_lt (m := m) (by omega)
  have hlt := F32.unitsOfMag_lt_succ m
  have hnear := (F32.roundMag_nearest (by decide) (heq ▸ hd) m).1
  rw [heq] at hnear
  generalize F32.unitsOfMag x * F32.unitsOfMag (m + 1) = num at *
  rcases le_abs.1 ((le_abs_self _).trans hnear) with hfar | hmid
  · omega
  · omega

/-- The rounded difference `d` of magnitude `n`, times a factor below one, does not pass the exact difference: where
the product keeps the magnitude of `d`, the difference is so small that it was exact. -/
theorem F32.unitsOfMag_roundMag_mul_le {x n : Nat} (hx : F32.unitsOfMag x < 2 ^ 149)
    (hd : F32.roundMag n 1 < F32.infMag) :
    F32.unitsOfMag (F32.roundMag (F32.unitsOfMag x * F32.unitsOfMag (F32.roundMag n 1)) (2 ^ 149)) ≤ n := by
  by_contra hover
  have hmono : F32.roundMag n 1 ≤ F32.roundMag (F32.unitsOfMag x * F32.unitsOfMag (F32.roundMag n 1)) (2 ^ 149) := by
    conv_rhs => rw [← F32.roundMag_exact_one (F32.roundMag_le_infMag _ _)]
    exact F32.roundMag_mono Nat.one_pos Nat.one_pos (by omega)
  rcases F32.roundMag_mul_lt hx hd with hlt | ⟨heq, hsmall⟩
  · omega
  · rw [heq] at hover
    rw [F32.unitsOfMag_of_le (by omega)] at hover
    have hexact := F32.roundMag_exact_one (m := n) (by rw [F32.infMag_eq]; omega)
    rw [F32.unitsOfMag_of_le (by omega)] at hexact
    exact hover hexact.le

/-! ## One step towards the target -/

section Approach
variable {m a b : F32} (hm : m.isFinite = true) (hm0 : 0 ≤ m.units) (hm1 : m.units < 2 ^ 149)
  (ha : a.isFinite = true) (hb : b.isFinite = true) (ha0 : 0 ≤ a.units) (hb0 : 0 ≤ b.units)

include ha hb in
theorem F32.place_sub_of_finite : (a.sub b).place = F32.roundPlace (a.units - b.units) 1 := by
  rw [F32.sub, F32.place_add ha (by rwa [F32.isFinite_neg]), F32.units_neg, Int.sub_eq_add_neg]

include ha hb ha0 hb0 in
theorem F32.isFinite_sub_of_nonneg : (a.sub b).isFinite = true := by
  have hplace := F32.place_sub_of_finite ha hb
  have hnb : b.neg.isFinite = true := by rwa [F32.isFinite_neg]
  exact F32.isFinite_of_units hnb ha
    (F32.units_le_of_place Nat.one_pos hnb hplace (by rw [F32.units_neg]; omega))
    (F32.units_ge_of_place Nat.one_pos ha hplace (by omega))

include hm hm0 hm1 ha hb ha0 hb0

/-- The rounded product with the rounded difference is no larger than the exact difference. -/
theorem F32.natAbs_units_mul_sub_le : (m.mul (a.sub b)).units.natAbs ≤ (a.units - b.units).natAbs := by
  have hfin := F32.isFinite_sub_of_nonneg ha hb ha0 hb0
  have hdiff : (a.sub b).mag = F32.roundMag (a.units - b.units).natAbs 1 := by
    rw [← F32.natAbs_place, F32.place_sub_of_finite ha hb, F32.natAbs_roundPlace]
  have hprod : (m.mul (a.sub b)).mag = F32.roundMag (m.absUnits * (a.sub b).absUnits) (2 ^ 149) := by
    rw [F32.mul_of_finite hm hfin, F32.mag_ofSignMag _ (F32.roundMag_lt _ _)]
  have hfactor : m.absUnits < 2 ^ 149 := by
    rw [← F32.natAbs_units]
    omega
  rw [F32.natAbs_units, F32.absUnits, hprod, F32.absUnits, F32.absUnits, hdiff]
  exact F32.unitsOfMag_roundMag_mul_le hfactor (hdiff ▸ F32.isFinite_iff.1 hfin)

/-- The rounded product with the rounded difference lies between zero and the exact difference. -/
theorem F32.units_mul_sub_between :
    min 0 (a.units - b.units) ≤ (m.mul (a.sub b)).units ∧
      (m.mul (a.sub b)).units ≤ max 0 (a.units - b.units) := by
  have habs := F32.natAbs_units_mul_sub_le hm hm0 hm1 ha hb ha0 hb0
  have hdiff := F32.place_sub_of_finite ha hb
  have hprod := F32.place_mul hm (F32.isFinite_sub_of_nonneg ha hb ha0 hb0)
  rcases le_total 0 (a.units - b.units) with hn | hn
  · have hsign := F32.units_nonneg_of_place (by decide) hprod
      (mul_nonneg hm0 (F32.units_nonneg_of_place Nat.one_pos hdiff hn))
    omega
  · have hsign := F32.units_nonpos_of_place (by decide) hprod
      (mul_nonpos_of_nonneg_of_nonpos hm0 (F32.units_nonpos_of_place Nat.one_pos hdiff hn))
    omega

/-- `m * (a - b) + b`, each operation rounded, lies between `a` and `b` (R127). -/
theorem F32.approach_between :
    ((m.mul (a.sub b)).add b).isFinite = true ∧ min a.units b.units ≤ ((m.mul (a.sub b)).add b).units ∧
      ((m.mul (a.sub b)).add b).units ≤ max a.units b.units := by
  obtain ⟨hlow, hhigh⟩ := F32.units_mul_sub_between hm hm0 hm1 ha hb ha0 hb0
  have hpfin : (m.mul (a.sub b)).isFinite = true :=
    F32.isFinite_of_units (lo := b.neg) (by rwa [F32.isFinite_neg]) ha (by rw [F32.units_neg]; omega) (by omega)
  have hplace := F32.place_add hpfin hb
  rcases le_total a.units b.units with hab | hab
  · have h1 := F32.units_le_of_place Nat.one_pos ha hplace (by omega)
    have h2 := F32.units_ge_of_place Nat.one_pos hb hplace (by omega)
    exact ⟨F32.isFinite_of_units ha hb h1 h2, by omega, by omega⟩
  · have h1 := F32.units_le_of_place Nat.one_pos hb hplace (by omega)
    have h2 := F32.units_ge_of_place Nat.one_pos ha hplace (by omega)
    exact ⟨F32.isFinite_of_units hb ha h1 h2, by omega, by omega⟩

end Approach

end Sys2Proof

namespace Sys2Proof.Machine

/-! ## The operations -/

@[simp] theorem Voice.envOf_setEnv (v : Voice) (e : EnvSel) (x : Envelope) : (v.setEnv e x).envOf e = x := by
  cases e <;> rfl

@[simp] theorem State.envOf_onEnv (s : State) (v : VoiceIx) (e : EnvSel) (f : Envelope → Envelope) :
    ((s.onEnv v e f).voice v).envOf e = f ((s.voice v).envOf e) := by
  simp [State.onEnv]

/-- The jump of an attack, `SILENCE + SILENCE`, is 0.0002 (R121). -/
theorem silenceTwice_cfg : silenceTwice cfg = ⟨0x3951B717⟩ := by decide

/-- ENV.NEXT past the switch: decay and sustain (R122). -/
theorem envNext_of_gt {c : Config} {e : Envelope}
    (h : ((envNextLevel e).add e.target).gt c.envSwitchSum = true) :
    envNext c e = { e with level := envNextLevel e, multiplier := e.decayMul, target := e.sustainLevel } := if_pos h

theorem envNext_of_not_gt {c : Config} {e : Envelope}
    (h : ((envNextLevel e).add e.target).gt c.envSwitchSum = false) :
    envNext c e = { e with level := envNextLevel e } := if_neg (Bool.eq_false_iff.1 h)

@[simp] theorem envNext_level (c : Config) (e : Envelope) : (envNext c e).level = envNextLevel e := by
  cases h : ((envNextLevel e).add e.target).gt c.envSwitchSum
  · rw [envNext_of_not_gt h]
  · rw [envNext_of_gt h]

theorem execEnvAttack_eq (v : VoiceIx) (e : EnvSel) (s : State) :
    execEnvAttack v e s =
      .next (s.onEnv v e fun E =>
        { E with level := E.level.add ⟨0x3951B717⟩, target := F32.two, multiplier := E.attackMul }) := by
  rw [← silenceTwice_cfg]; rfl

theorem execEnvNext_eq (v : VoiceIx) (e : EnvSel) (s : State) :
    execEnvNext v e s =
      .next ((s.onEnv v e (envNext cfg)).setResult (.f32 (envNextLevel ((s.voice v).envOf e)))) := rfl

/-- Settles O28: each operation is its definition; the branch of ENV.NEXT is the one its test takes. -/
theorem envelopeOperations : Obligations.EnvelopeOperations := by
  unfold Obligations.EnvelopeOperations
  intro v e s
  refine ⟨rfl, execEnvAttack_eq v e s, fun h => ?_, fun h => ?_, rfl, rfl, rfl⟩
  · rw [exec_envNext, execEnvNext_eq, State.onEnv, envNext_of_gt (c := cfg) (e := (s.voice v).envOf e) h]
    rfl
  · rw [exec_envNext, execEnvNext_eq, State.onEnv, envNext_of_not_gt (c := cfg) (e := (s.voice v).envOf e) h]
    rfl

/-! ## Legal registers -/

/-- The range of a level or a target, in units: 2.0 is 2^150. -/
theorem levelInRange_iff {x : F32} :
    levelInRange x = true ↔ x.isFinite = true ∧ 0 ≤ x.units ∧ x.units ≤ 2 ^ 150 := by
  rw [levelInRange, Bool.and_eq_true]
  exact F32.mem_Icc_iff (lo := F32.zero) (hi := F32.two) rfl rfl

theorem sustainInRange_iff {x : F32} :
    sustainInRange x = true ↔ x.isFinite = true ∧ 0 ≤ x.units ∧ x.units ≤ 2 ^ 149 := by
  rw [sustainInRange, Bool.and_eq_true]
  exact F32.mem_Icc_iff (lo := F32.zero) (hi := F32.one) rfl rfl

theorem levelInRange_of_sustainInRange {x : F32} (h : sustainInRange x = true) : levelInRange x = true := by
  obtain ⟨hfin, hlow, hhigh⟩ := sustainInRange_iff.1 h
  exact levelInRange_iff.2 ⟨hfin, hlow, by omega⟩

theorem units_of_multiplierInRange {x : F32} (h : multiplierInRange x = true) :
    x.isFinite = true ∧ 0 ≤ x.units ∧ x.units < 2 ^ 149 := by
  obtain ⟨hge, hlt⟩ := Bool.and_eq_true_iff.1 h
  exact F32.units_of_mem_Ico (lo := F32.zero) (hi := F32.one) rfl rfl hge hlt

theorem levelInRange_zero : levelInRange F32.zero = true := by decide

theorem levelInRange_two : levelInRange F32.two = true := by decide

theorem multiplierInRange_zero : multiplierInRange F32.zero = true := by decide

/-- A step of ENV.NEXT stays within [0, 2], whatever the coefficients are (R127). -/
theorem envNextLevel_inRange {e : Envelope} (hlevel : levelInRange e.level = true)
    (htarget : levelInRange e.target = true) (hmul : multiplierInRange e.multiplier = true) :
    levelInRange (envNextLevel e) = true := by
  obtain ⟨hl, hl0, hl2⟩ := levelInRange_iff.1 hlevel
  obtain ⟨ht, ht0, ht2⟩ := levelInRange_iff.1 htarget
  obtain ⟨hm, hm0, hm1⟩ := units_of_multiplierInRange hmul
  obtain ⟨hfin, hlow, hhigh⟩ := F32.approach_between hm hm0 hm1 hl ht hl0 ht0
  exact levelInRange_iff.2 ⟨hfin, (le_min hl0 ht0).trans hlow, hhigh.trans (max_le hl2 ht2)⟩

/-- The clauses of `Envelope.inRange`. -/
structure LegalEnvelope (e : Envelope) : Prop where
  level : levelInRange e.level = true
  target : levelInRange e.target = true
  multiplier : multiplierInRange e.multiplier = true
  attackMul : multiplierInRange e.attackMul = true
  decayMul : multiplierInRange e.decayMul = true
  sustainLevel : sustainInRange e.sustainLevel = true
  releaseMul : multiplierInRange e.releaseMul = true

theorem Envelope.inRange_iff {e : Envelope} : e.inRange = true ↔ LegalEnvelope e := by
  simp only [Envelope.inRange, Bool.and_eq_true]
  constructor
  · rintro ⟨⟨⟨⟨⟨⟨h1, h2⟩, h3⟩, h4⟩, h5⟩, h6⟩, h7⟩
    exact ⟨h1, h2, h3, h4, h5, h6, h7⟩
  · rintro ⟨h1, h2, h3, h4, h5, h6, h7⟩
    exact ⟨⟨⟨⟨⟨⟨h1, h2⟩, h3⟩, h4⟩, h5⟩, h6⟩, h7⟩

section Legal
variable {e : Envelope} (h : LegalEnvelope e)
include h

theorem LegalEnvelope.next (c : Config) : LegalEnvelope (envNext c e) := by
  have hlevel := envNextLevel_inRange h.level h.target h.multiplier
  cases hswitch : ((envNextLevel e).add e.target).gt c.envSwitchSum
  · rw [envNext_of_not_gt hswitch]
    exact { h with level := hlevel }
  · rw [envNext_of_gt hswitch]
    exact { h with
      level := hlevel, target := levelInRange_of_sustainInRange h.sustainLevel, multiplier := h.decayMul }

theorem LegalEnvelope.release : LegalEnvelope (envRelease e) :=
  { h with target := levelInRange_zero, multiplier := h.releaseMul }

theorem LegalEnvelope.reset : LegalEnvelope (envReset e) :=
  { h with level := levelInRange_zero, target := levelInRange_zero, multiplier := multiplierInRange_zero }

/-- The attack's jump adds a positive constant; that it stays at or below 2.0 is a premise. -/
theorem LegalEnvelope.attack (hjump : (e.level.add ⟨0x3951B717⟩).le F32.two = true) :
    LegalEnvelope (envAttack cfg e) := by
  obtain ⟨hfin, hlow, -⟩ := levelInRange_iff.1 h.level
  have hpos : 0 ≤ (F32.mk 0x3951B717).units := by decide
  have hnonneg := F32.units_nonneg_of_place Nat.one_pos (F32.place_add hfin rfl) (add_nonneg hlow hpos)
  have hge : (e.level.add ⟨0x3951B717⟩).ge F32.zero = true :=
    (F32.le_iff_units rfl (F32.not_isNaN_of_le hjump).1).2 hnonneg
  have hlevel : levelInRange (e.level.add (silenceTwice cfg)) = true := by
    rw [silenceTwice_cfg]
    exact Bool.and_eq_true_iff.2 ⟨hge, hjump⟩
  exact { h with level := hlevel, target := levelInRange_two, multiplier := h.attackMul }

end Legal

/-- Settles O29: the level moves between its old value and the target, and each operation takes its new target and
multiplier from registers that are in range. -/
theorem envelopeLevelNeverNegative : Obligations.EnvelopeLevelNeverNegative := by
  unfold Obligations.EnvelopeLevelNeverNegative
  intro v e s
  refine ⟨fun hl0 hl2 ht0 ht2 hm0 hm1 => ⟨_, execEnvNext_eq v e s, ?_⟩, fun h => ?_⟩
  · have hlevel := envNextLevel_inRange (Bool.and_eq_true_iff.2 ⟨hl0, hl2⟩) (Bool.and_eq_true_iff.2 ⟨ht0, ht2⟩)
      (Bool.and_eq_true_iff.2 ⟨hm0, hm1⟩)
    obtain ⟨hge, hle⟩ := Bool.and_eq_true_iff.1 hlevel
    rw [State.voice_setResult, State.envOf_onEnv, envNext_level]
    exact ⟨hge, hle, (levelInRange_iff.1 hlevel).1⟩
  · have hlegal := Envelope.inRange_iff.1 h
    refine ⟨⟨_, execEnvNext_eq v e s, ?_⟩, ⟨_, rfl, ?_⟩, ⟨_, rfl, ?_⟩, fun hjump => ⟨_, rfl, ?_⟩⟩
    · rw [State.voice_setResult, State.envOf_onEnv]
      exact Envelope.inRange_iff.2 (hlegal.next cfg)
    · rw [State.envOf_onEnv]
      exact Envelope.inRange_iff.2 hlegal.release
    · rw [State.envOf_onEnv]
      exact Envelope.inRange_iff.2 hlegal.reset
    · rw [State.envOf_onEnv]
      exact Envelope.inRange_iff.2 (hlegal.attack hjump)

end Sys2Proof.Machine
end

section
/-! SUPPORT and PROOFS. The oscillator (spec 42_oscillator.md R140 to R144): how an oscillator of the state is read and
written, OSC.SQUARE as one update of it, and the two branches of OSC.NEXT. -/

namespace Sys2Proof.Machine

/-! ## An oscillator of the state -/

@[simp] theorem Voice.oscOf_setOsc (v : Voice) (o : OscSel) (x : Oscillator) : (v.setOsc o x).oscOf o = x := by
  cases o <;> rfl

@[simp] theorem Voice.setOsc_setOsc (v : Voice) (o : OscSel) (x y : Oscillator) :
    (v.setOsc o x).setOsc o y = v.setOsc o y := by
  cases o <;> rfl

@[simp] theorem State.setVoice_setVoice (s : State) (v : VoiceIx) (x y : Voice) :
    (s.setVoice v x).setVoice v y = s.setVoice v y := by
  have hbank : (s.voices.set v x).set v y = s.voices.set v y :=
    Bank.ext_get fun w => by simp only [Bank.get_set]; split <;> rfl
  simp [State.setVoice, hbank]

/-- Two updates of one oscillator are one. -/
theorem State.onOsc_onOsc (s : State) (v : VoiceIx) (o : OscSel) (f g : Oscillator → Oscillator) :
    (s.onOsc v o f).onOsc v o g = s.onOsc v o (g ∘ f) := by
  simp [State.onOsc]

/-! ## The operations -/

/-- OSC.SQUARE reads nothing of its own oscillator but the knobs, which the reset before it keeps (R144). -/
@[simp] theorem oscSquare_oscReset (c : Config) (o other : Oscillator) (newPeriod : F32) :
    oscSquare c (oscReset o) other newPeriod = oscSquare c o other newPeriod := rfl

/-- OSC.SQUARE as one update: the other oscillator is read from the state the reset has left (R144). -/
theorem execOscSquare_eq (v : VoiceIx) (o : OscSel) (w : VoiceIx) (q : OscSel) (newPeriod : F32) (s : State) :
    execOscSquare v o w q newPeriod s =
      .next (s.onOsc v o fun x => oscSquare cfg x (((s.onOsc v o oscReset).voice w).oscOf q) newPeriod) := by
  simp [execOscSquare, execOscSquareIn, State.onOsc_onOsc, Function.comp_def]

theorem execOscNext_eq (v : VoiceIx) (o : OscSel) (s : State) :
    execOscNext v o s =
      .next ((s.onOsc v o fun _ => (oscNext cfg ((s.voice v).oscOf o)).1).setResult
        (.f32 (oscNext cfg ((s.voice v).oscOf o)).2)) := rfl

/-- OSC.NEXT at or below pi/4: the recompute branch, less the DC it has just written (R141, R142). -/
theorem oscNext_of_le {c : Config} {o : Oscillator} (h : (o.phase.add o.inc).le c.piOver4 = true) :
    oscNext c o =
      let r := oscRecompute c { o with phase := o.phase.add o.inc }
      (r.1, r.2.sub r.1.dc) := by
  simp [oscNext, h]

/-- OSC.NEXT beyond pi/4: the recursion branch, less the DC in the register (R141, R143). -/
theorem oscNext_of_not_le {c : Config} {o : Oscillator} (h : (o.phase.add o.inc).le c.piOver4 = false) :
    oscNext c o =
      let r := oscRecur { o with phase := o.phase.add o.inc }
      (r.1, r.2.sub o.dc) := by
  simp [oscNext, h, oscRecur]

/-- Settles O30: the reset is its definition, and the reset and the seeding after it are one update. -/
theorem oscillatorResetAndSquare : Obligations.OscillatorResetAndSquare := by
  unfold Obligations.OscillatorResetAndSquare
  intro v o s
  exact ⟨rfl, fun w q newPeriod => execOscSquare_eq v o w q newPeriod s⟩

/-- Settles O31: the test of the advanced phase takes one branch, and the branch is its formulas. -/
theorem oscillatorNext : Obligations.OscillatorNext := by
  unfold Obligations.OscillatorNext
  intro v o s
  refine ⟨fun h => ?_, fun h => ?_⟩
  · rw [exec_oscNext, execOscNext_eq, oscNext_of_le (c := cfg) h]
    rfl
  · rw [exec_oscNext, execOscNext_eq, oscNext_of_not_le (c := cfg) h]
    rfl

end Sys2Proof.Machine
end

section
/-! SUPPORT and PROOFS. The filter (spec 43_filter.md R160 to R176): sums and products of zeros, the stage and the section
that keep them, `LPF4_silent` for each realisation, and the three operations of the filter unit. -/

namespace Sys2Proof
open Machine

/-! ## Zeros -/

theorem F32.isZero_add_of_isZero {a b : F32} (ha : a.isZero = true) (hb : b.isZero = true) :
    (a.add b).isZero = true := by
  rw [F32.add_of_units_eq_zero (F32.isFinite_of_isZero ha) (F32.isFinite_of_isZero hb)
    (by rw [F32.units_of_isZero ha, F32.units_of_isZero hb]; rfl), F32.isZero_ofSignMag_zero]

theorem F32.isZero_sub_of_isZero {a b : F32} (ha : a.isZero = true) (hb : b.isZero = true) :
    (a.sub b).isZero = true :=
  F32.isZero_add_of_isZero ha ((F32.isZero_neg b).trans hb)

/-- `+0.0` absorbs a zero of either sign: a zero sum is `-0.0` only when both operands are. -/
theorem F32.zero_add_of_isZero {x : F32} (hx : x.isZero = true) : F32.zero.add x = F32.zero :=
  F32.add_of_units_eq_zero rfl (F32.isFinite_of_isZero hx) (by rw [F32.units_of_isZero hx]; rfl)

theorem F32.isZero_mul_right {a x : F32} (ha : a.isFinite = true) (hx : x.isZero = true) : (a.mul x).isZero = true :=
  F32.isZero_mul_of_isZero ha (F32.isFinite_of_isZero hx) (.inr hx)

end Sys2Proof

namespace Sys2Proof.Machine

/-! ## LPF4_silent -/

/-- A cleared stage stays exactly `+0.0` on a zero of either sign (R167). -/
theorem ladderStage_zero {g x : F32} (hg : g.isFinite = true) (hx : x.isZero = true) :
    ladderStage g F32.zero x = F32.zero :=
  F32.zero_add_of_isZero (F32.isZero_mul_right hg (F32.isZero_sub_of_isZero hx rfl))

theorem ladderStep_silent {g k x : F32} (hg : g.isFinite = true) (hk : k.isFinite = true) (hx : x.isZero = true) :
    ladderStep g k polesZero x = (polesZero, F32.zero) := by
  have hfeedback : (x.sub (k.mul F32.zero)).isZero = true := F32.isZero_sub_of_isZero hx (F32.isZero_mul_right hk rfl)
  have hstage : ladderStage g F32.zero F32.zero = F32.zero := ladderStage_zero hg rfl
  simp only [ladderStep, polesZero, ladderStage_zero hg hfeedback, hstage]

section Biquad
variable {b0 b1 b2 a1 a2 : F32} (hb0 : b0.isFinite = true) (hb1 : b1.isFinite = true) (hb2 : b2.isFinite = true)
  (ha1 : a1.isFinite = true) (ha2 : a2.isFinite = true)
include hb0 hb1 hb2 ha1 ha2

/-- A section of zeros, fed a zero, holds zeros and gives a zero (R172). -/
theorem biquadSection_isZero {z0 z1 x : F32} (hz0 : z0.isZero = true) (hz1 : z1.isZero = true) (hx : x.isZero = true) :
    let r := biquadSection b0 b1 b2 a1 a2 z0 z1 x
    r.1.isZero = true ∧ r.2.1.isZero = true ∧ r.2.2.isZero = true := by
  have hy : ((b0.mul x).add z0).isZero = true := F32.isZero_add_of_isZero (F32.isZero_mul_right hb0 hx) hz0
  have hdiff {b a : F32} (hb : b.isFinite = true) (ha : a.isFinite = true) :
      ((b.mul x).sub (a.mul ((b0.mul x).add z0))).isZero = true :=
    F32.isZero_sub_of_isZero (F32.isZero_mul_right hb hx) (F32.isZero_mul_right ha hy)
  exact ⟨F32.isZero_add_of_isZero (hdiff hb1 ha1) hz1, hdiff hb2 ha2, hy⟩

theorem biquadStep_isZero {x : F32} (hx : x.isZero = true) :
    let r := biquadStep b0 b1 b2 a1 a2 polesZero x
    r.1.p0.isZero = true ∧ r.1.p1.isZero = true ∧ r.1.p2.isZero = true ∧ r.1.p3.isZero = true ∧ r.2.isZero = true := by
  obtain ⟨hp0, hp1, hy1⟩ := biquadSection_isZero hb0 hb1 hb2 ha1 ha2 (z0 := F32.zero) (z1 := F32.zero) rfl rfl hx
  obtain ⟨hp2, hp3, hy2⟩ := biquadSection_isZero hb0 hb1 hb2 ha1 ha2 (z0 := F32.zero) (z1 := F32.zero) rfl rfl hy1
  exact ⟨hp0, hp1, hp2, hp3, hy2⟩

end Biquad

/-- The law of R163 holds of a user structure because its step imposes it (R176; log 3). -/
theorem userStepSilent_of_silent (c : Config) (regs : List F32) {x : F32} (hx : x.isZero = true) :
    userStepSilent c regs polesZero x = (polesZero, F32.ofSignMag (c.userStep regs polesZero x).2.sign 0) := by
  simp [userStepSilent, hx]

theorem userStepSilent_of_not_silent (c : Config) (regs : List F32) {p : Poles} {x : F32}
    (h : ¬(p = polesZero ∧ x.isZero = true)) : userStepSilent c regs p x = c.userStep regs p x := by
  simp [userStepSilent, h]

/-- Settles O34: realisation by realisation; products with a zero and sums of zeros are zeros, and a sum with `+0.0` of a
zero is `+0.0`. -/
theorem filterSilent : Obligations.FilterSilent := by
  unfold Obligations.FilterSilent
  intro c x hx
  refine ⟨fun regs => ?_, fun g k hg hk => ?_, fun b0 b1 b2 a1 a2 hb0 hb1 hb2 ha1 ha2 => ?_⟩
  · have hstep : lpf4Step c (.user regs) polesZero x = _ := userStepSilent_of_silent c regs hx
    exact ⟨congrArg Prod.fst hstep, (congrArg (·.2.isZero) hstep).trans (F32.isZero_ofSignMag_zero _)⟩
  · have hstep : lpf4Step c (.ladder g k) polesZero x = _ := ladderStep_silent hg hk hx
    exact ⟨congrArg Prod.fst hstep, congrArg Prod.snd hstep⟩
  · exact biquadStep_isZero hb0 hb1 hb2 ha1 ha2 hx

/-! ## The operations -/

/-- With the ladder in force FLT.UPDATE computes `g` and `k` (R8, R166; log 3). -/
theorem lpf4Coef_cfg (fs cutoffHz res : F32) : lpf4Coef cfg fs cutoffHz res = ladderCoef cfg fs cutoffHz res := rfl

theorem fltUpdate_cfg (fs : F32) (f : Filter) (cutoffHz q : F32) :
    fltUpdate cfg fs f cutoffHz q =
      let res := (q.div cfg.qDiv).clamp F32.zero F32.one
      { f with cutoff := cutoffHz, res := res, coef := ladderCoef cfg fs cutoffHz res } := by
  simp only [fltUpdate, lpf4Coef_cfg]

/-- Settles O32: both operations are one update of the voice's filter; the update is that of the ladder. -/
theorem filterUpdateAndReset : Obligations.FilterUpdateAndReset := by
  unfold Obligations.FilterUpdateAndReset
  intro v s
  refine ⟨rfl, fun cutoffHz q => ?_⟩
  rw [exec_fltUpdate, execFltUpdate, execFltUpdateIn, State.onFilter, fltUpdate_cfg]
  rfl

/-- FLT.RENDER writes the poles its step gives, and the step's output on the result line (R161; log 11). -/
theorem exec_fltRender_eq {v : VoiceIx} {x : F32} {s : State} {p : Poles} {r : F32}
    (hstep : lpf4Step cfg (s.voice v).filter.coef (s.voice v).filter.poles x = (p, r)) :
    exec (.fltRender v x) s =
      .next ((s.setVoice v { s.voice v with filter := { (s.voice v).filter with poles := p } }).setResult (.f32 r)) := by
  simp only [exec_fltRender, execFltRender, execFltRenderIn, fltRender, State.onFilter, hstep]

/-- Settles O33: the coefficient registers name the step, and FLT.RENDER writes what that step gives. -/
theorem filterRender : Obligations.FilterRender := by
  unfold Obligations.FilterRender
  intro v x s
  refine ⟨fun g k hcoef => ?_, fun b0 b1 b2 a1 a2 hcoef => ?_, fun regs hcoef => ⟨fun hnot => ?_, fun hpoles hx => ?_⟩⟩
  · exact exec_fltRender_eq (by rw [hcoef]; rfl)
  · exact exec_fltRender_eq (by rw [hcoef]; rfl)
  · exact exec_fltRender_eq (by rw [hcoef]; exact userStepSilent_of_not_silent cfg regs hnot)
  · have hstep : lpf4Step cfg (s.voice v).filter.coef (s.voice v).filter.poles x =
        ((s.voice v).filter.poles, F32.ofSignMag (cfg.userStep regs polesZero x).2.sign 0) := by
      rw [hcoef, hpoles]
      exact userStepSilent_of_silent cfg regs hx
    exact ⟨_, F32.isZero_ofSignMag_zero _, exec_fltRender_eq hstep⟩

end Sys2Proof.Machine
end

section
/-! SUPPORT and PROOFS. The voice (spec 44_voice.md R190 to R194): the result line beside the banks, the operations a voice
calls under every configuration, the pan position with its literals, and VOICE.RENDER and VOICE.UPDATELFO as the calls of
their rules. -/

namespace Sys2Proof.Machine

/-! ## The result line beside the banks -/

@[simp] theorem State.setVoice_setResult (s : State) (r : MicroResult) (v : VoiceIx) (x : Voice) :
    (s.setResult r).setVoice v x = (s.setVoice v x).setResult r := rfl

@[simp] theorem State.setResult_setResult (s : State) (r q : MicroResult) :
    (s.setResult r).setResult q = s.setResult q := rfl

/-- A bank write keeps the result line, so writing it back changes nothing. -/
@[simp] theorem State.setVoice_setResult_self (s : State) (v : VoiceIx) (x : Voice) :
    (s.setVoice v x).setResult s.result = s.setVoice v x := rfl

/-! ## The operations under every configuration -/

theorem execIn_envNext (c : Config) (v : VoiceIx) (e : EnvSel) (s : State) :
    execIn c (.envNext v e) s =
      .next ((s.onEnv v e (envNext c)).setResult (.f32 (envNextLevel ((s.voice v).envOf e)))) := rfl

theorem execIn_oscNext (c : Config) (v : VoiceIx) (o : OscSel) (s : State) :
    execIn c (.oscNext v o) s =
      .next ((s.onOsc v o fun _ => (oscNext c ((s.voice v).oscOf o)).1).setResult
        (.f32 (oscNext c ((s.voice v).oscOf o)).2)) := rfl

theorem execIn_fltRender (c : Config) (v : VoiceIx) (x : F32) (s : State) :
    execIn c (.fltRender v x) s =
      .next ((s.onFilter v fun _ => (fltRender c (s.voice v).filter x).1).setResult
        (.f32 (fltRender c (s.voice v).filter x).2)) := rfl

theorem execIn_fltUpdate (c : Config) (v : VoiceIx) (cutoffHz q : F32) (s : State) :
    execIn c (.fltUpdate v cutoffHz q) s = .next (s.onFilter v fun f => fltUpdate c s.sampleRate f cutoffHz q) := rfl

theorem execIn_voiceRender (c : Config) (v : VoiceIx) (input : F32) (s : State) :
    execIn c (.voiceRender v input) s =
      .next ((s.setVoice v (voiceRender c (s.voice v) input).1).setResult
        (.f32 (voiceRender c (s.voice v) input).2)) := rfl

theorem execIn_voiceUpdateLfo (c : Config) (v : VoiceIx) (s : State) :
    execIn c (.voiceUpdateLfo v) s = .next (s.setVoice v (voiceUpdateLfo c s.sampleRate (s.voice v))) := rfl

/-! ## RELEASE, RESET and UPDATEPAN -/

/-- The note the pan position is measured from, as a binary32: 60.0 (R192). -/
theorem panCentre_cfg : F32.ofNat cfg.panCentre = ⟨0x42700000⟩ := by decide

/-- The pan position under the configuration in force, its clamp written out (R12, R192). -/
theorem panPosition_cfg (note : BitVec 8) :
    panPosition cfg note =
      let q := ((F32.ofInt note.toInt).sub ⟨0x42700000⟩).div ⟨0x41C00000⟩
      if q.lt ⟨0xBF800000⟩ = true then ⟨0xBF800000⟩ else if q.gt ⟨0x3F800000⟩ = true then ⟨0x3F800000⟩ else q := by
  rw [panPosition, panCentre_cfg]
  rfl

/-- Settles O35: RELEASE and RESET are their definitions, and so is UPDATEPAN but for the literals of the pan position. -/
theorem voiceReleaseResetPan : Obligations.VoiceReleaseResetPan := by
  unfold Obligations.VoiceReleaseResetPan
  refine ⟨fun v s => ⟨rfl, rfl⟩, fun v s => ?_⟩
  rw [exec_voiceUpdatePan, execVoiceUpdatePan, execVoiceUpdatePanIn, voiceUpdatePan, panPosition_cfg]
  rfl

/-! ## RENDER -/

/-- VOICE.RENDER is the calls of R190 under every configuration: each call reads registers that no call before it has
written, so the writes of the four calls and of the integrator are the one bank write of VOICE.RENDER. -/
theorem execIn_voiceRender_calls (c : Config) (v : VoiceIx) (input : F32) (s : State) :
    ∃ (a b q d : State) (s1 s2 y e : F32),
      execIn c (.oscNext v .one) s = .next a ∧ a.result = .f32 s1 ∧
      execIn c (.oscNext v .two) a = .next b ∧ b.result = .f32 s2 ∧
      let saw := (((s.voice v).saw.mul c.sawLeak).add s1).sub s2
      execIn c (.fltRender v (saw.add input)) (b.setVoice v { b.voice v with saw := saw }) = .next q ∧
        q.result = .f32 y ∧
        execIn c (.envNext v .amp) q = .next d ∧ d.result = .f32 e ∧
        execIn c (.voiceRender v input) s = .next (d.setResult (.f32 (y.mul e))) := by
  refine ⟨_, _, _, _, _, _, _, _, execIn_oscNext c v .one s, rfl, execIn_oscNext c v .two _, rfl,
    execIn_fltRender c v _ _, rfl, execIn_envNext c v .amp _, rfl, ?_⟩
  simp [execIn_voiceRender, voiceRender, State.onOsc, State.onFilter, State.onEnv]

/-- Settles O36: the calls of R190 under the configuration in force, whose `SAW_LEAK` is the literal. -/
theorem voiceRenderComposition : Obligations.VoiceRenderComposition := by
  unfold Obligations.VoiceRenderComposition
  exact fun v input s => execIn_voiceRender_calls cfg v input s

/-! ## UPDATELFO -/

/-- VOICE.UPDATELFO is the calls of R191 under every configuration: FLT.UPDATE writes the filter alone, ENV.NEXT the filter
envelope alone, and neither the registers the cutoff is computed from. -/
theorem execIn_voiceUpdateLfo_calls (c : Config) (v : VoiceIx) (s : State) :
    let V := s.voice v
    let glided := V.period.add (V.glideRate.mul (V.target.sub V.period))
    ∃ (a b : State) (fe : F32),
      execIn c (.envNext v .filt) (s.setVoice v { V with period := glided }) = .next a ∧ a.result = .f32 fe ∧
      let mc := (V.cutoff.mul (c.exp (cutoffExponent c V.filterMod V.filterEnvDepth fe))).div V.pitchBend
      execIn c (.fltUpdate v (mc.clamp c.cutoffMin c.cutoffMax) V.filterQ) a = .next b ∧
        execIn c (.voiceUpdateLfo v) s = .next (b.setResult s.result) := by
  refine ⟨_, _, _, execIn_envNext c v .filt _, rfl, execIn_fltUpdate c v _ _ _, ?_⟩
  simp [execIn_voiceUpdateLfo, voiceUpdateLfo, State.onFilter, State.onEnv]

/-- Settles O37: the calls of R191 with the clamp and `cutoffExponent` written out; the configuration in force is one
configuration, with its literals and with the sum. -/
theorem voiceUpdateLfoComposition : Obligations.VoiceUpdateLfoComposition := by
  unfold Obligations.VoiceUpdateLfoComposition
  exact ⟨fun v s => execIn_voiceUpdateLfo_calls cfg v s, execIn_voiceUpdateLfo_calls⟩

end Sys2Proof.Machine
end

section
/-! SUPPORT and PROOFS. The block render (spec 45_synth_render.md R210 to R222): the safety net by places, the smoother
branch by branch, the LFO step, one sample step as its calls, and RENDER as its four parts. -/

namespace Sys2Proof
open Machine

/-! ## Zeros and NaNs -/

/-- A zero or a NaN: what SYN.SAFE makes a zero of whatever else happens to it. -/
def F32.Silent (x : F32) : Prop := x.isZero = true ∨ x.isNaN = true

theorem F32.silent_zero : F32.zero.Silent := .inl rfl

theorem F32.silent_newNaN (op : NanOp) (a b : F32) : (F32.newNaN op a b).Silent := .inr (F32.isNaN_newNaN op a b)

theorem F32.Silent.add {a b : F32} (ha : a.Silent) (hb : b.Silent) : (a.add b).Silent := by
  by_cases hn : a.isNaN = true ∨ b.isNaN = true
  · rw [F32.add_of_isNaN hn]
    exact F32.silent_newNaN ..
  · obtain ⟨hna, hnb⟩ := not_or.1 hn
    exact .inl (F32.isZero_add_of_isZero (ha.resolve_right hna) (hb.resolve_right hnb))

/-- A zero times an infinity is a NaN, times any finite value a zero (R11). -/
theorem F32.Silent.mul {a : F32} (ha : a.Silent) (b : F32) : (a.mul b).Silent := by
  rcases ha with ha | ha
  · have hfin := F32.isFinite_of_isZero ha
    have hna := F32.not_isNaN_of_finite hfin
    rcases lt_trichotomy b.mag F32.infMag with hb | hb | hb
    · exact .inl (F32.isZero_mul_of_isZero hfin (F32.isFinite_iff.2 hb) (.inl ha))
    · have hinf := F32.isInf_iff.2 hb
      rw [F32.mul_of_isInf hna (F32.not_isNaN_of_isInf hinf) (.inr hinf), ha]
      exact F32.silent_newNaN ..
    · rw [F32.mul_of_isNaN (.inr (decide_eq_true hb))]
      exact F32.silent_newNaN ..
  · rw [F32.mul_of_isNaN (.inl ha)]
    exact F32.silent_newNaN ..

/-! ## A bank -/

/-- Writing what stands in a bank changes nothing. -/
theorem Bank.set_get_self {α : Type} (b : Bank α) (v : VoiceIx) : b.set v (b.get v) = b := by
  refine Bank.ext_get fun w => ?_
  rw [Bank.get_set]
  split
  next h => rw [h]
  next => rfl

/-! ## Comparisons with a bound -/

/-- The places of the bounds of SYN.SAFE (R219): 1.0, 2.0 and their negatives. -/
theorem F32.place_safeBounds :
    (F32.mk 0x3F800000).place = 0x3F800000 ∧ (F32.mk 0xBF800000).place = -0x3F800000 ∧
      (F32.mk 0x40000000).place = 0x40000000 ∧ (F32.mk 0xC0000000).place = -0x40000000 := by decide

end Sys2Proof

namespace Sys2Proof.Machine

/-! ## SYN.SAFE -/

theorem safe_of_special (c : Config) {x : F32} (h : x.isNaN = true ∨ x.isInf = true) : safe c x = F32.zero :=
  if_pos (by simpa using h)

theorem safe_of_beyond (c : Config) {x : F32} (h : x.lt c.safeZero.neg = true ∨ x.gt c.safeZero = true) :
    safe c x = F32.zero := by
  unfold safe
  rw [if_pos (by simpa using h : (x.lt c.safeZero.neg || x.gt c.safeZero) = true), ite_self]

/-- SYN.SAFE of a value that is no NaN, by its place in the order; an infinity's place is beyond 2.0 too (R219). -/
theorem safe_of_place {x : F32} (hx : x.isNaN = false) :
    safe cfg x =
      if x.place < -0x40000000 ∨ 0x40000000 < x.place then F32.zero
      else if x.place < -0x3F800000 then ⟨0xBF800000⟩
      else if 0x3F800000 < x.place then ⟨0x3F800000⟩
      else x := by
  obtain ⟨hp1, hm1, hp2, hm2⟩ := F32.place_safeBounds
  have hlow2 : x.lt cfg.safeZero.neg = decide (x.place < -0x40000000) := by
    rw [F32.lt_eq_place hx (by decide), ← hm2]; rfl
  have hhigh2 : x.gt cfg.safeZero = decide (0x40000000 < x.place) := by
    rw [F32.gt, F32.lt_eq_place (by decide) hx, ← hp2]; rfl
  have hlow1 : x.lt cfg.safeClamp.neg = decide (x.place < -0x3F800000) := by
    rw [F32.lt_eq_place hx (by decide), ← hm1]; rfl
  have hhigh1 : x.gt cfg.safeClamp = decide (0x3F800000 < x.place) := by
    rw [F32.gt, F32.lt_eq_place (by decide) hx, ← hp1]; rfl
  by_cases hinf : x.isInf = true
  · have hplace := F32.place_of_isInf hinf
    rw [safe_of_special cfg (.inr hinf), if_pos]
    rw [F32.infMag_eq] at hplace
    split at hplace <;> omega
  · simp only [safe, hx, Bool.eq_false_iff.2 hinf, hlow2, hhigh2, hlow1, hhigh1, Bool.or_self, Bool.false_eq_true,
      if_false, Bool.or_eq_true, decide_eq_true_eq]
    rfl

theorem safe_of_low {x : F32} (hge : x.ge ⟨0xC0000000⟩ = true) (hlt : x.lt ⟨0xBF800000⟩ = true) :
    safe cfg x = ⟨0xBF800000⟩ := by
  obtain ⟨hp1, hm1, hp2, hm2⟩ := F32.place_safeBounds
  have hx := (F32.not_isNaN_of_le hge).2
  rw [F32.ge, F32.le_eq_place (by decide) hx, decide_eq_true_iff] at hge
  rw [F32.lt_eq_place hx (by decide), decide_eq_true_iff] at hlt
  rw [safe_of_place hx, if_neg (by omega), if_pos (by omega)]

theorem safe_of_high {x : F32} (hle : x.le ⟨0x40000000⟩ = true) (hgt : x.gt ⟨0x3F800000⟩ = true) :
    safe cfg x = ⟨0x3F800000⟩ := by
  obtain ⟨hp1, hm1, hp2, hm2⟩ := F32.place_safeBounds
  have hx := (F32.not_isNaN_of_le hle).1
  rw [F32.le_eq_place hx (by decide), decide_eq_true_iff] at hle
  rw [F32.gt, F32.lt_eq_place (by decide) hx, decide_eq_true_iff] at hgt
  rw [safe_of_place hx, if_neg (by omega), if_neg (by omega), if_pos (by omega)]

/-- A value in [-1.0, 1.0] passes unchanged. -/
theorem safe_of_mem {x : F32} (hge : x.ge ⟨0xBF800000⟩ = true) (hle : x.le ⟨0x3F800000⟩ = true) : safe cfg x = x := by
  obtain ⟨hp1, hm1, hp2, hm2⟩ := F32.place_safeBounds
  have hx := (F32.not_isNaN_of_le hge).2
  rw [F32.ge, F32.le_eq_place (by decide) hx, decide_eq_true_iff] at hge
  rw [F32.le_eq_place hx (by decide), decide_eq_true_iff] at hle
  rw [safe_of_place hx, if_neg (by omega), if_neg (by omega), if_neg (by omega)]

/-- The postcondition of R219. -/
theorem safe_bounds (x : F32) :
    (safe cfg x).isFinite = true ∧ (safe cfg x).ge ⟨0xBF800000⟩ = true ∧ (safe cfg x).le ⟨0x3F800000⟩ = true := by
  have hmem : (safe cfg x).ge ⟨0xBF800000⟩ = true ∧ (safe cfg x).le ⟨0x3F800000⟩ = true :=
    Bool.and_eq_true_iff.1 (safe_wordSafe x)
  exact ⟨((F32.mem_Icc_iff rfl rfl).1 hmem).1, hmem⟩

theorem isZero_safe {x : F32} (h : x.Silent) : (safe cfg x).isZero = true := by
  rcases h with h | h
  · have hx := F32.not_isNaN_of_finite (F32.isFinite_of_isZero h)
    have hplace : x.place = 0 := by rw [← Int.natAbs_eq_zero, F32.natAbs_place, F32.isZero_iff.1 h]
    rw [safe_of_place hx, if_neg (by omega), if_neg (by omega), if_neg (by omega), h]
  · rw [safe_of_special cfg (.inl h)]
    rfl

/-- Settles O52: the branch SYN.SAFE takes is read off the place of the operand, and its bounds are `safe_bounds`. -/
theorem safeSample : Obligations.SafeSample := by
  unfold Obligations.SafeSample
  exact fun x s => ⟨safe cfg x, rfl, safe_of_special cfg, safe_of_beyond cfg, safe_of_low, safe_of_high, safe_of_mem,
    safe_bounds x⟩

/-! ## The smoother -/

theorem smSet_of_feq {sm : Smoother} {x : F32} (h : x.feq sm.tgt = true) : smSet sm x = sm := if_pos h

theorem smSet_of_len_eq_zero {sm : Smoother} {x : F32} (h : x.feq sm.tgt = false) (hlen : sm.len = 0) :
    smSet sm x = { sm with cur := x, tgt := x, count := 0 } := by
  simp [smSet, h, hlen]

theorem smSet_of_len_pos {sm : Smoother} {x : F32} (h : x.feq sm.tgt = false) (hlen : 0 < sm.len) :
    smSet sm x = { sm with tgt := x, count := sm.len, step := (x.sub sm.cur).div (F32.ofInt sm.len) } := by
  simp [smSet, h, hlen.ne', F32.ofNat]

theorem smNext_of_count_eq_zero {sm : Smoother} (h : sm.count = 0) : smNext sm = (sm, sm.tgt) := if_pos h

theorem smNext_of_count_eq_one {sm : Smoother} (h : sm.count = 1) :
    smNext sm = ({ sm with count := 0, cur := sm.tgt }, sm.tgt) := by
  simp [smNext, h]

theorem smNext_of_one_lt_count {sm : Smoother} (h : 1 < sm.count) :
    smNext sm = ({ sm with count := sm.count - 1, cur := sm.cur.add sm.step }, sm.cur.add sm.step) := by
  simp [smNext, h, (show sm.count ≠ 0 by omega)]

/-- SM.NEXT counts down, and writes the level besides. -/
theorem smNext_frame (sm : Smoother) :
    (smNext sm).1 = { sm with count := sm.count - 1, cur := (smNext sm).1.cur } := by
  unfold smNext
  split
  next h =>
    obtain ⟨_, _, _, count, _⟩ := sm
    obtain rfl : count = 0 := h
    rfl
  next => rfl

/-- The state SM.NEXT leaves. -/
def State.smAdvance (s : State) : State := { s with sm := (smNext s.sm).1 }.setResult (.f32 (smNext s.sm).2)

theorem exec_smNext_eq (s : State) : exec .smNext s = .next s.smAdvance := rfl

/-- `k` calls of SM.NEXT count down by `k`, and write the level besides. -/
theorem State.smAdvance_iterate_frame (s : State) (k : Nat) :
    ∃ cur, (State.smAdvance^[k] s).sm = { s.sm with count := s.sm.count - k, cur := cur } := by
  induction k with
  | zero => exact ⟨s.sm.cur, rfl⟩
  | succ k ih =>
    obtain ⟨cur, hsm⟩ := ih
    rw [Function.iterate_succ_apply']
    refine ⟨(smNext (State.smAdvance^[k] s).sm).1.cur, (smNext_frame _).trans ?_⟩
    rw [hsm]
    rfl

/-- Settles O51: each branch is the equation of its test; the ramp is the iterate of SM.NEXT, whose count falls by one
each time, so its last call is the branch that loads the target. -/
theorem smoother : Obligations.Smoother := by
  unfold Obligations.Smoother
  refine ⟨fun s => ⟨fun x h => ?_, fun x h hlen => ?_, fun x h hlen => ?_, fun h => ?_, fun h => ?_, fun h => ?_⟩,
    fun n s hcount => ⟨fun k => State.smAdvance^[k] s, rfl, fun k _ => ?_, fun k _ => ?_, ?_⟩⟩
  · rw [exec_smSet, execSmSet, smSet_of_feq h]
  · rw [exec_smSet, execSmSet, smSet_of_len_eq_zero h hlen]
  · rw [exec_smSet, execSmSet, smSet_of_len_pos h hlen]
  · rw [exec_smNext_eq, State.smAdvance, smNext_of_count_eq_zero h]
    rfl
  · rw [exec_smNext_eq, State.smAdvance, smNext_of_one_lt_count h]
    rfl
  · rw [exec_smNext_eq, State.smAdvance, smNext_of_count_eq_one h]
    rfl
  · exact (exec_smNext_eq _).trans (congrArg _ (Function.iterate_succ_apply' _ k s).symm)
  · obtain ⟨cur, hsm⟩ := s.smAdvance_iterate_frame k
    simp only [hsm, hcount]
  · obtain ⟨cur, hsm⟩ := s.smAdvance_iterate_frame n
    have hlast : (State.smAdvance^[n] s).sm.count = 1 := by rw [hsm, hcount]; simp
    simp only [Function.iterate_succ_apply', State.smAdvance, smNext_of_count_eq_one hlast, State.setResult_sm,
      State.setResult_result]
    rw [hsm]
    exact ⟨rfl, rfl⟩

/-! ## SYN.UPDATEPERIOD -/

theorem exec_synUpdatePeriod_of_legal {s : State} (hw : s.p.detune.written = true)
    (hr : detuneInRange s.p.detune.value = true) (v : VoiceIx) :
    exec (.synUpdatePeriod v) s =
      .next (s.setVoice v (updatePeriod s.pitchBend s.p.detune.value (s.voice v))) := by
  have hcheck : checkReads cfg s.p [.detune] = none := (checkReads_cons (id := .detune) hw hr []).trans rfl
  rw [exec_synUpdatePeriod, execSynUpdatePeriod, execSynUpdatePeriodIn, hcheck, guarded_none]

theorem exec_synUpdatePeriod_of_ready {s : State} (h : s.p.ready cfg = true) (v : VoiceIx) :
    exec (.synUpdatePeriod v) s =
      .next (s.setVoice v (updatePeriod s.pitchBend s.p.detune.value (s.voice v))) :=
  exec_synUpdatePeriod_of_legal (Params.ready_iff.1 h .detune).1 (Params.ready_detune h) v

/-- Settles O50: the precondition holds, and `updatePeriod` is the two lines of R215. -/
theorem updatePeriod_spec : Obligations.UpdatePeriod := by
  unfold Obligations.UpdatePeriod
  exact fun v s hw hr => exec_synUpdatePeriod_of_legal hw hr v

/-! ## SYN.LFOSTEP -/

theorem lfoStep_of_one_lt (c : Config) {s : State} (h : 1 < s.lfoStep) :
    lfoStep c s = { s with lfoStep := s.lfoStep - 1 } := if_neg (by omega)

theorem lfoStep_of_le_one (c : Config) {s : State} (h : s.lfoStep ≤ 1) : lfoStep c s = lfoTick c s :=
  if_pos (by omega)

/-- Between two ticks SYN.LFOSTEP reads no parameter. -/
theorem exec_synLfoStep_of_one_lt {s : State} (h : 1 < s.lfoStep) :
    exec .synLfoStep s = .next { s with lfoStep := s.lfoStep - 1 } := by
  rw [exec_synLfoStep, execSynLfoStep, execSynLfoStepIn, if_neg (by omega), guarded_none, lfoStep_of_one_lt cfg h]

theorem exec_synLfoStep_of_ready {s : State} (h : s.p.ready cfg = true) :
    exec .synLfoStep s = .next (lfoStep cfg s) := by
  rw [exec_synLfoStep, execSynLfoStep, execSynLfoStepIn, checkReads_of_ready h, ite_self, guarded_none]

/-- What a tick does to an active voice: the modulations, then VOICE.UPDATELFO, then SYN.UPDATEPERIOD (R214). -/
theorem tickVoice_of_active {c : Config} {V : Voice} (h : V.active c = true) (fs bend detune vibratoMod pwm zip : F32) :
    tickVoice c fs bend detune vibratoMod pwm zip V =
      updatePeriod bend detune (voiceUpdateLfo c fs
        { V with
          osc1 := { V.osc1 with modulation := vibratoMod }
          osc2 := { V.osc2 with modulation := pwm }
          filterMod := zip }) := if_pos h

/-- The two calls on a bank that holds `V`. -/
theorem exec_voiceUpdateLfo_synUpdatePeriod {s : State} (h : s.p.ready cfg = true) (v : VoiceIx) (V : Voice) :
    ∃ a b, exec (.voiceUpdateLfo v) (s.setVoice v V) = .next a ∧ exec (.synUpdatePeriod v) a = .next b ∧
      updatePeriod s.pitchBend s.p.detune.value (voiceUpdateLfo cfg s.sampleRate V) = b.voice v := by
  refine ⟨_, _, rfl, exec_synUpdatePeriod_of_ready (by simpa using h) v, ?_⟩
  simp

/-- Settles O49: the two sides of the tick boundary are the two branches of `lfoStep`; at a tick the banks are the image
under `tickVoice`. -/
theorem lfoStep_spec : Obligations.LfoStep := by
  unfold Obligations.LfoStep
  refine fun s => ⟨exec_synLfoStep_of_one_lt, fun htick hready => ?_⟩
  have hnext : exec .synLfoStep s = .next (lfoTick cfg s) := by
    rw [exec_synLfoStep_of_ready hready, lfoStep_of_le_one cfg htick]
  refine ⟨lfoTick cfg s, hnext, rfl, fun v hv => ?_, fun v hv => ?_⟩
  · rw [← lfoStep_of_le_one cfg htick]
    exact lfoStep_inactive hv
  · obtain ⟨a, b, ha, hb, hvoice⟩ := exec_voiceUpdateLfo_synUpdatePeriod hready v _
    refine ⟨a, b, ha, hb, ?_⟩
    rw [← hvoice]
    exact (Bank.get_map _ _ v).trans (tickVoice_of_active (c := cfg) hv ..)

/-! ## One sample step -/

theorem mixVoice_of_active {c : Config} {V : Voice} (h : V.active c = true) (noise : F32) :
    mixVoice c noise V =
      let r := voiceRender c V noise
      (r.1, some (r.2.mul V.panLeft, r.2.mul V.panRight)) := if_pos h

theorem mixVoice_of_inactive {c : Config} {V : Voice} (h : V.active c = false) (noise : F32) :
    mixVoice c noise V = (V, none) := if_neg (by simp [h])

/-- One voice's panned output into the accumulators (R212). -/
def addOutput (acc : F32 × F32) (out : Option (F32 × F32)) : F32 × F32 :=
  match out with
  | some (l, r) => (acc.1.add l, acc.2.add r)
  | none => acc

theorem mixSum_eq_foldl (outs : List (Option (F32 × F32))) :
    mixSum outs = outs.foldl addOutput (F32.zero, F32.zero) := rfl

/-- One turn of the voice loop of R212 as its call: an active voice renders, and its result goes into the accumulators. -/
def visitVoice (noise : F32) (acc : State × F32 × F32) (v : VoiceIx) : State × F32 × F32 :=
  if (acc.1.voice v).active cfg = true then
    match exec (.voiceRender v noise) acc.1 with
    | .next t =>
      match t.result with
      | .f32 o => (t, acc.2.1.add (o.mul (t.voice v).panLeft), acc.2.2.add (o.mul (t.voice v).panRight))
      | _ => acc
    | _ => acc
  else acc

/-- One turn of the voice loop is `mixVoice` on the bank; the rest of the state but the result line stays. -/
theorem visitVoice_eq (noise : F32) (acc : State × F32 × F32) (v : VoiceIx) :
    visitVoice noise acc v =
      ({ acc.1 with
          voices := acc.1.voices.set v (mixVoice cfg noise (acc.1.voice v)).1
          result := (visitVoice noise acc v).1.result },
        addOutput acc.2 (mixVoice cfg noise (acc.1.voice v)).2) := by
  cases h : (acc.1.voice v).active cfg
  · have hvisit : visitVoice noise acc v = acc := if_neg (by simp [h])
    rw [hvisit, mixVoice_of_inactive h, State.voice_eq, Bank.set_get_self]
    rfl
  · have hvisit : visitVoice noise acc v =
        (let r := voiceRender cfg (acc.1.voice v) noise
        let t := (acc.1.setVoice v r.1).setResult (.f32 r.2)
        (t, acc.2.1.add (r.2.mul (t.voice v).panLeft), acc.2.2.add (r.2.mul (t.voice v).panRight))) := if_pos h
    rw [hvisit, mixVoice_of_active h]
    simp only [State.voice_setResult, State.voice_setVoice_same]
    rfl

/-- The turns for different voices do not meet: each renders the bank as it stood before the loop. -/
theorem foldl_visitVoice (noise : F32) (vs : List VoiceIx) (hnodup : vs.Nodup) (acc : State × F32 × F32) :
    ∃ voices result,
      vs.foldl (visitVoice noise) acc =
        ({ acc.1 with voices := voices, result := result },
          (vs.map fun v => (mixVoice cfg noise (acc.1.voice v)).2).foldl addOutput acc.2) ∧
      ∀ w, voices.get w = if w ∈ vs then (mixVoice cfg noise (acc.1.voice w)).1 else acc.1.voice w := by
  induction vs generalizing acc with
  | nil => exact ⟨acc.1.voices, acc.1.result, rfl, fun w => by simp [State.voice_eq]⟩
  | cons v vs ih =>
    obtain ⟨hv, hvs⟩ := List.nodup_cons.1 hnodup
    have hstep := visitVoice_eq noise acc v
    obtain ⟨voices, result, hfold, hget⟩ := ih hvs (visitVoice noise acc v)
    have hvoice (w : VoiceIx) : (visitVoice noise acc v).1.voice w =
        if v = w then (mixVoice cfg noise (acc.1.voice v)).1 else acc.1.voice w := by
      rw [hstep]
      exact Bank.get_set _ _ _ _
    have hother {w : VoiceIx} (hw : w ∈ vs) : (visitVoice noise acc v).1.voice w = acc.1.voice w := by
      rw [hvoice, if_neg (ne_of_mem_of_not_mem hw hv).symm]
    refine ⟨voices, result, ?_, fun w => ?_⟩
    · have houts : (vs.map fun w => (mixVoice cfg noise ((visitVoice noise acc v).1.voice w)).2) =
          vs.map fun w => (mixVoice cfg noise (acc.1.voice w)).2 :=
        List.map_congr_left fun w hw => by rw [hother hw]
      rw [List.foldl_cons, hfold, houts, hstep]
      rfl
    · rw [hget]
      by_cases hw : w ∈ vs
      · rw [if_pos hw, if_pos (List.mem_cons_of_mem _ hw), hother hw]
      · rw [if_neg hw, hvoice]
        by_cases hvw : v = w
        · simp [hvw]
        · simp [hvw, Ne.symm hvw, hw]

/-- The voice loop over all eight voices is the mix of the bank (R212 (b)). -/
theorem foldl_visitVoice_all (noise : F32) (s : State) :
    ∃ result,
      ([0, 1, 2, 3, 4, 5, 6, 7] : List VoiceIx).foldl (visitVoice noise) (s, F32.zero, F32.zero) =
        ({ s with voices := s.voices.map (Prod.fst ∘ mixVoice cfg noise), result := result },
          mixSum ((s.voices.map (mixVoice cfg noise)).map Prod.snd).toList) := by
  obtain ⟨voices, result, hfold, hget⟩ :=
    foldl_visitVoice noise [0, 1, 2, 3, 4, 5, 6, 7] (by decide) (s, F32.zero, F32.zero)
  have hvoices : voices = s.voices.map (Prod.fst ∘ mixVoice cfg noise) := by
    refine Bank.ext_get fun w => ?_
    rw [hget w, Bank.get_map, if_pos (by fin_cases w <;> decide)]
    rfl
  exact ⟨result, by rw [hfold, hvoices, mixSum_eq_foldl]; rfl⟩

/-- The sample NG.NEXT returns. -/
def State.ngSample (c : Config) (s : State) : F32 := noiseSample c (noiseSeedNext c s.ng)

/-- The state NG.NEXT leaves. -/
def State.ngAdvance (c : Config) (s : State) : State :=
  { s with ng := noiseSeedNext c s.ng }.setResult (.f32 (s.ngSample c))

theorem exec_ngNext_eq (s : State) : exec .ngNext s = .next (s.ngAdvance cfg) := rfl

theorem State.ngAdvance_p (c : Config) (s : State) : (s.ngAdvance c).p = s.p := rfl

theorem State.ngAdvance_result (c : Config) (s : State) : (s.ngAdvance c).result = .f32 (s.ngSample c) := rfl

/-- SYN.LFOSTEP neither reads nor writes the result line. -/
theorem lfoStep_setResult (c : Config) (s : State) (r : MicroResult) :
    lfoStep c (s.setResult r) = (lfoStep c s).setResult r := by
  rcases lt_or_ge 1 s.lfoStep with h | h
  · rw [lfoStep_of_one_lt c h, lfoStep_of_one_lt c (s := s.setResult r) h]
    rfl
  · rw [lfoStep_of_le_one c h, lfoStep_of_le_one c (s := s.setResult r) h]
    rfl

/-- A sample step on the state after its LFO step: the mix, the level, the write; the result line is put back. -/
theorem sampleStep_eq_mix (c : Config) (stereo : Bool) (k : Nat) (s : State) :
    let b := lfoStep c (s.ngAdvance c)
    let mixed := b.voices.map (mixVoice c ((s.ngSample c).mul s.p.noiseMix.value))
    let sum := mixSum (mixed.map Prod.snd).toList
    sampleStep c stereo k s =
      (writeSample stereo k (sum.1.mul (smNext b.sm).2) (sum.2.mul (smNext b.sm).2)
        { b with voices := mixed.map Prod.fst, sm := (smNext b.sm).1 }).setResult s.result := by
  have hresult : (lfoStep c { s with ng := noiseSeedNext c s.ng }).result = s.result := by rw [lfoStep_frame]
  rw [State.ngAdvance, lfoStep_setResult]
  dsimp only [sampleStep]
  generalize lfoStep c { s with ng := noiseSeedNext c s.ng } = moved at *
  rw [← hresult]
  cases stereo <;> rfl

/-- A sample step is its calls in order (R212, R213, R217); the result line, which the calls write, is put back. -/
theorem sampleStep_calls (stereo : Bool) (k : Nat) {s : State} (h : s.p.ready cfg = true) :
    ∃ (a b c : State) (x lvl : F32),
      exec .ngNext s = .next a ∧ a.result = .f32 x ∧ exec .synLfoStep a = .next b ∧
      let mixed := ([0, 1, 2, 3, 4, 5, 6, 7] : List VoiceIx).foldl (visitVoice (x.mul s.p.noiseMix.value))
        (b, F32.zero, F32.zero)
      exec .smNext mixed.1 = .next c ∧ c.result = .f32 lvl ∧
      sampleStep cfg stereo k s =
        (writeSample stereo k (mixed.2.1.mul lvl) (mixed.2.2.mul lvl) c).setResult s.result := by
  have hready : (s.ngAdvance cfg).p.ready cfg = true := by rwa [State.ngAdvance_p]
  obtain ⟨result, hmixed⟩ :=
    foldl_visitVoice_all ((s.ngSample cfg).mul s.p.noiseMix.value) (lfoStep cfg (s.ngAdvance cfg))
  have hstep := sampleStep_eq_mix cfg stereo k s
  have hlfo := exec_synLfoStep_of_ready hready
  generalize lfoStep cfg (s.ngAdvance cfg) = b at *
  refine ⟨s.ngAdvance cfg, b, State.smAdvance (_ : State × F32 × F32).1, s.ngSample cfg, (smNext b.sm).2,
    exec_ngNext_eq s, State.ngAdvance_result cfg s, hlfo, exec_smNext_eq _, ?_, ?_⟩
  · rw [hmixed]
    rfl
  · rw [hmixed, hstep]
    cases stereo <;> rfl

/-- Settles O54: the calls of `sampleStep_calls`, with the output write of R217 read off for stereo and for mono. -/
theorem sampleStepOrder : Obligations.SampleStepOrder := by
  unfold Obligations.SampleStepOrder
  intro stereo k s hready
  obtain ⟨a, b, c, x, lvl, hng, hx, hlfo, hsm, hlvl, hstep⟩ := sampleStep_calls stereo k hready
  refine ⟨a, b, c, x, lvl, hng, hx, hlfo, hsm, hlvl, ?_⟩
  rw [hstep]
  cases stereo <;> rfl

/-! ## RENDER in its four parts -/

/-- The sample loop of R210 as a fold over the sample indices. -/
theorem sampleSteps_eq_foldl (c : Config) (stereo : Bool) (count k : Nat) (s : State) :
    sampleSteps c stereo count k s = (List.range' k count).foldl (fun u j => sampleStep c stereo j u) s := by
  induction count generalizing k s with
  | zero => rfl
  | succ n ih =>
    rw [List.range'_succ, List.foldl_cons]
    exact ih (k + 1) _

/-- The state at the end of RENDER's sample loop, before the sweep and the safety pass. -/
def State.afterSamples (c : Config) (stereo : Bool) (n : Nat) (s : State) : State :=
  sampleSteps c stereo n 0 (prologue c s)

theorem State.afterSamples_eq_foldl (c : Config) (stereo : Bool) (n : Nat) (s : State) :
    s.afterSamples c stereo n = (List.range n).foldl (fun u k => sampleStep c stereo k u) (prologue c s) := by
  rw [List.range_eq_range']
  exact sampleSteps_eq_foldl c stereo n 0 _

/-- The sample loop leaves every word from `n` on. -/
theorem State.afterSamples_word_of_le (c : Config) (stereo : Bool) {n k : Nat} (h : n ≤ k) (s : State) :
    outWord? (s.afterSamples c stereo n).outL k = outWord? s.outL k ∧
      outWord? (s.afterSamples c stereo n).outR k = outWord? s.outR k :=
  sampleSteps_word_other stereo n 0 (prologue c s) (by omega)

/-- The sweep and the safety pass write the banks and the buffers alone. -/
theorem renderBlock_eq_afterSamples (c : Config) (stereo : Bool) (n : Nat) (s : State) :
    renderBlock c stereo n s =
      { s.afterSamples c stereo n with
        voices := (renderBlock c stereo n s).voices
        outL := (renderBlock c stereo n s).outL
        outR := (renderBlock c stereo n s).outR } := rfl

theorem renderBlock_outL (c : Config) (stereo : Bool) (n : Nat) (s : State) :
    (renderBlock c stereo n s).outL = safetyBuf c .left n (s.afterSamples c stereo n).outL := rfl

theorem renderBlock_outR (c : Config) (stereo : Bool) (n : Nat) (s : State) :
    (renderBlock c stereo n s).outR =
      if stereo then safetyBuf c .right n (s.afterSamples c stereo n).outR
      else (s.afterSamples c stereo n).outR := rfl

theorem prologue_voice (c : Config) (s : State) (v : VoiceIx) :
    (prologue c s).voice v = prologueVoice c s.pitchBend s.p (s.voice v) := Bank.get_map _ _ v

theorem prologue_voice_of_inactive {c : Config} {s : State} {v : VoiceIx} (h : (s.voice v).active c = false) :
    (prologue c s).voice v = s.voice v := (prologue_voice c s v).trans (prologueVoice_inactive h _ _)

theorem prologueVoice_of_active {c : Config} {V : Voice} (h : V.active c = true) (bend : F32) (p : Params) :
    prologueVoice c bend p V =
      { updatePeriod bend p.detune.value V with
        glideRate := p.glideRate.value
        filterQ := p.filterQ.value
        pitchBend := bend
        filterEnvDepth := p.filterEnvDepth.value } := if_pos h

/-! ## The sweep -/

/-- A voice that went inactive is reset (R218). -/
theorem sweepVoice_of_edge {c : Config} {was : Bool} {V : Voice} (h : was = true ∧ V.active c = false) :
    sweepVoice c was V = voiceReset c V := if_pos (by simp [h])

theorem sweepVoice_of_no_edge {c : Config} {was : Bool} {V : Voice} (h : ¬(was = true ∧ V.active c = false)) :
    sweepVoice c was V = V := if_neg (by simpa using h)

theorem voiceReset_voiceReset (c : Config) (V : Voice) : voiceReset c (voiceReset c V) = voiceReset c V := rfl

theorem State.setVoice_self (s : State) (v : VoiceIx) : s.setVoice v (s.voice v) = s := by
  simp only [State.setVoice, State.voice_eq, Bank.set_get_self]

/-- An inactive voice passes every part of a block untouched (R211, R212, R218). -/
theorem renderBlock_voice_of_inactive {c : Config} {s : State} {v : VoiceIx} (h : (s.voice v).active c = false)
    (stereo : Bool) (n : Nat) : (renderBlock c stereo n s).voice v = s.voice v := by
  have hprologue := prologue_voice_of_inactive h
  rw [renderBlock_voice, sampleSteps_inactive stereo n 0 _ (hprologue ▸ h), hprologue, h]
  exact sweepVoice_of_no_edge (by simp)

/-! ## The words of a block -/

/-- A word of the block after the safety pass. -/
theorem outRead_safetyBuf (c : Config) (id : OutId) {n k : Nat} (h : k < n) (b : OutBuf) :
    outRead id (safetyBuf c id n b) k = safe c (outRead id b k) := by
  rw [outRead, outWord?_safetyBuf, if_pos h, Option.getD_some]

/-- A word the block did not write. -/
theorem outWord?_safetyBuf_of_le (c : Config) (id : OutId) {n k : Nat} (h : n ≤ k) (b : OutBuf) :
    outWord? (safetyBuf c id n b) k = outWord? b k := by
  rw [outWord?_safetyBuf, if_neg (not_lt.2 h)]

/-- The right buffer in mono is not touched by a block (R217, R219). -/
theorem renderBlock_mono_outR (c : Config) (n : Nat) (s : State) : (renderBlock c false n s).outR = s.outR :=
  sampleSteps_mono_outR c n 0 _

theorem renderBlock_outR_of_le (c : Config) (stereo : Bool) {n k : Nat} (h : n ≤ k) (s : State) :
    outWord? (renderBlock c stereo n s).outR k = outWord? (s.afterSamples c stereo n).outR k := by
  rw [renderBlock_outR]
  split
  · exact outWord?_safetyBuf_of_le c .right h _
  · rfl

/-- Settles O55: `renderBlock` is this composition by definition; each part is read voice by voice and word by word. -/
theorem renderComposition : Obligations.RenderComposition := by
  unfold Obligations.RenderComposition
  intro stereo n s halloc hready was
  refine ⟨prologue cfg s, s.afterSamples cfg stereo n.toNat, renderBlock cfg stereo n.toNat s, rfl, rfl,
    fun v hv => ?_, fun v hv => ?_, State.afterSamples_eq_foldl .., exec_render_of_ready halloc hready stereo n,
    renderBlock_eq_afterSamples .., fun v => ⟨fun hedge => ?_, fun hedge => ?_⟩, fun k hk => ⟨?_, ?_⟩,
    fun k hk => ⟨?_, ?_⟩, ?_⟩
  · exact prologue_voice_of_inactive (c := cfg) hv
  · refine ⟨_, exec_synUpdatePeriod_of_ready hready v, ?_⟩
    rw [prologue_voice, prologueVoice_of_active (c := cfg) hv, State.voice_setVoice_same]
  · rw [renderBlock_voice, sweepVoice_of_edge hedge]
    rfl
  · rw [renderBlock_voice, sweepVoice_of_no_edge hedge]
    rfl
  · rw [renderBlock_outL, outRead_safetyBuf cfg .left hk]
    rfl
  · rintro rfl
    rw [renderBlock_outR, if_pos rfl, outRead_safetyBuf cfg .right hk]
    rfl
  · rw [renderBlock_outL, outWord?_safetyBuf_of_le cfg .left hk]
  · exact renderBlock_outR_of_le cfg stereo hk s
  · rintro rfl
    rfl

/-- Settles O59: an inactive voice passes every part untouched; the reset of the sweep is idempotent. -/
theorem endOfBlockSweep : Obligations.EndOfBlockSweep := by
  unfold Obligations.EndOfBlockSweep
  intro stereo n s t h v
  obtain ⟨-, rfl⟩ := execRenderIn_next h
  refine ⟨fun hoff => renderBlock_voice_of_inactive (c := cfg) hoff stereo n.toNat, fun hon hoff => ?_⟩
  have hvoice := renderBlock_voice cfg stereo n.toNat s v
  by_cases hedge : (s.voice v).active cfg = true ∧ ((s.afterSamples cfg stereo n.toNat).voice v).active cfg = false
  · have hreset := hvoice.trans (sweepVoice_of_edge hedge)
    rw [exec_voiceReset, execVoiceReset, execVoiceResetIn, hreset, voiceReset_voiceReset, ← hreset, State.setVoice_self]
  · have hkept := hvoice.trans (sweepVoice_of_no_edge hedge)
    exact absurd ⟨hon, (congrArg (Voice.active cfg) hkept).symm.trans hoff⟩ hedge

/-- Settles O56: each word of the block is a value of SYN.SAFE; the rest is the frame of the block. -/
theorem renderBlockIsSafe : Obligations.RenderBlockIsSafe := by
  unfold Obligations.RenderBlockIsSafe
  intro stereo n s halloc hready
  refine ⟨renderBlock cfg stereo n.toNat s, exec_render_of_ready halloc hready stereo n, fun k hk => ?_,
    fun hst k hk => ?_, fun k hk => ?_, fun k hk => ?_, ?_, ?_⟩
  · exact ⟨_, (outWord?_safetyBuf ..).trans (if_pos hk), safe_bounds _⟩
  · subst hst
    exact ⟨_, (outWord?_safetyBuf ..).trans (if_pos hk), safe_bounds _⟩
  · exact (outWord?_safetyBuf_of_le cfg .left hk _).trans (s.afterSamples_word_of_le cfg stereo hk).1
  · rcases hk with rfl | hk
    · rw [renderBlock_mono_outR]
    · exact (renderBlock_outR_of_le cfg stereo hk s).trans (s.afterSamples_word_of_le cfg stereo hk).2
  · rw [renderBlock_frame]
    rfl
  · rw [renderBlock_frame]

/-- Settles O57: no sample step and no word of the safety pass is left, and the sweep finds no edge, because the prologue
keeps which voices are active. -/
theorem renderZero : Obligations.RenderZero := by
  unfold Obligations.RenderZero
  intro stereo s halloc hready
  refine ⟨renderBlock cfg stereo 0 s, _, exec_render_of_ready halloc hready stereo 0, rfl, ?_, fun v => ?_⟩
  · cases stereo <;> rfl
  · have hvoice : (renderBlock cfg stereo 0 s).voice v = prologueVoice cfg s.pitchBend s.p (s.voice v) := by
      rw [renderBlock_voice]
      show sweepVoice cfg _ ((prologue cfg s).voice v) = _
      rw [prologue_voice, sweepVoice_of_no_edge (by simp)]
    rw [hvoice]
    split
    next hv => exact prologueVoice_of_active (c := cfg) hv _ _
    next hv => exact prologueVoice_inactive (c := cfg) (Bool.eq_false_iff.2 hv) _ _

/-! ## Silence -/

/-- With no active voice both accumulators stay at +0.0. -/
theorem mixSum_of_inactive {c : Config} {b : Bank Voice} (h : ∀ v, (b.get v).active c = false) (noise : F32) :
    mixSum ((b.map (mixVoice c noise)).map Prod.snd).toList = (F32.zero, F32.zero) := by
  have hnone : (b.map (mixVoice c noise)).map Prod.snd = Bank.all none :=
    Bank.ext_get fun v => by rw [Bank.get_map, Bank.get_map, mixVoice_of_inactive (h v), Bank.get_all]
  rw [hnone]
  rfl

theorem writeSample_outL (stereo : Bool) (k : Nat) (l r : F32) (s : State) :
    (writeSample stereo k l r s).outL = outWrite s.outL k (if stereo then l else (l.add r).mul F32.half) := by
  cases stereo <;> simp [writeSample]

theorem writeSample_stereo_outR (k : Nat) (l r : F32) (s : State) :
    (writeSample true k l r s).outR = outWrite s.outR k r := rfl

/-- With no active voice a sample step writes silence: +0.0 times the level (R221). -/
theorem sampleStep_silent {c : Config} {s : State} (h : ∀ v, (s.voice v).active c = false) (stereo : Bool) (k : Nat) :
    (outRead .left (sampleStep c stereo k s).outL k).Silent ∧
      (stereo = true → (outRead .right (sampleStep c stereo k s).outR k).Silent) := by
  have hmoved (v : VoiceIx) : ((lfoStep c (s.ngAdvance c)).voice v).active c = false := by
    have hsame : (lfoStep c (s.ngAdvance c)).voice v = s.voice v := lfoStep_inactive (s := s.ngAdvance c) (h v)
    rw [hsame, h v]
  have hlevel (x : F32) : (F32.zero.mul x).Silent := F32.silent_zero.mul x
  have hstep := sampleStep_eq_mix c stereo k s
  dsimp only at hstep
  rw [mixSum_of_inactive hmoved] at hstep
  rw [hstep]
  refine ⟨?_, ?_⟩
  · rw [State.setResult_outL, writeSample_outL, outRead_write_same]
    split
    · exact hlevel _
    · exact ((hlevel _).add (hlevel _)).mul _
  · rintro rfl
    rw [State.setResult_outR, writeSample_stereo_outR, outRead_write_same]
    exact hlevel _

/-- With no active voice every word the sample steps write is silent. -/
theorem sampleSteps_silent {c : Config} (stereo : Bool) (count k : Nat) (s : State)
    (h : ∀ v, (s.voice v).active c = false) (j : Nat) (hkj : k ≤ j) (hj : j < k + count) :
    (outRead .left (sampleSteps c stereo count k s).outL j).Silent ∧
      (stereo = true → (outRead .right (sampleSteps c stereo count k s).outR j).Silent) := by
  induction count generalizing k s with
  | zero => omega
  | succ n ih =>
    rcases Nat.eq_or_lt_of_le hkj with rfl | hlt
    · obtain ⟨hL, hR⟩ := sampleSteps_word_other (c := c) (j := k) stereo n (k + 1) (sampleStep c stereo k s) (by omega)
      simp only [sampleSteps, outRead, hL, hR]
      exact sampleStep_silent h stereo k
    · exact ih (k + 1) (sampleStep c stereo k s) (fun v => by rw [sampleStep_inactive (h v)]; exact h v) hlt (by omega)

/-- Settles O58: no voice moves, and SYN.SAFE makes zeros of the silent words. -/
theorem renderSilence : Obligations.RenderSilence := by
  unfold Obligations.RenderSilence
  intro stereo n s halloc hready hoff
  have hinactive (v : VoiceIx) : (s.voice v).active cfg = false := hoff v
  have hprologue (v : VoiceIx) : ((prologue cfg s).voice v).active cfg = false := by
    rw [prologue_voice_of_inactive (hinactive v), hinactive v]
  refine ⟨renderBlock cfg stereo n.toNat s, exec_render_of_ready halloc hready stereo n,
    Bank.ext_get fun v => renderBlock_voice_of_inactive (hinactive v) stereo n.toNat, fun k hk => ?_⟩
  obtain ⟨hL, hR⟩ := sampleSteps_silent stereo n.toNat 0 _ hprologue k (Nat.zero_le k) (by omega)
  refine ⟨?_, ?_⟩
  · rw [renderBlock_outL, outRead_safetyBuf cfg .left hk]
    exact isZero_safe hL
  · rintro rfl
    rw [renderBlock_outR, if_pos rfl, outRead_safetyBuf cfg .right hk]
    exact isZero_safe (hR rfl)

/-! ## Words of the spec -/

/-- Settles O11: the words are literals, and the decoder computes on each of them. -/
theorem specWordsDecode : Obligations.SpecWordsDecode := by
  unfold Obligations.SpecWordsDecode
  exact ⟨rfl, rfl, rfl, rfl, rfl, rfl, rfl, rfl, rfl, rfl, rfl, rfl, rfl⟩

end Sys2Proof.Machine
end

section
/-! SUPPORT and PROOFS. MIDI (spec 46_midi_control.md R240 to R254): a message and a control change as the rows they
decode to, the messages that write one scalar, the pedal sweep and the channel mode reset. -/

namespace Sys2Proof.Machine

/-! ## Control change -/

/-- The row a controller number decodes to acts as the control change itself: both test the numbers in R244's order. -/
theorem execIn_decodeCcIn (c : Config) (ctl val : BitVec 7) (s : State) :
    execIn c (decodeCcIn c ctl val) s = .next (controlChange c ctl val s) := by
  unfold decodeCcIn controlChange
  dsimp only
  split_ifs <;> rfl

theorem execIn_midiCc (c : Config) (ctl val : BitVec 7) (s : State) :
    execIn c (.midiCc ctl val) s = execIn c (decodeCcIn c ctl val) s := (execIn_decodeCcIn c ctl val s).symm

theorem exec_decodeCcIn (ctl val : BitVec 7) (s : State) :
    exec (decodeCcIn cfg ctl val) s = .next (controlChange cfg ctl val s) := by
  rw [← execIn_cfg, execIn_decodeCcIn]

theorem exec_midiCc_of_decode {ctl val : BitVec 7} {i : Instr} (h : decodeCcIn cfg ctl val = i) (s : State) :
    exec (.midiCc ctl val) s = exec i s := h ▸ (exec_decodeCcIn ctl val s).symm

theorem decodeCcIn_modWheel {c : Config} {ctl : BitVec 7} (val : BitVec 7) (h : ctl.toNat = c.ccModwheel) :
    decodeCcIn c ctl val = .ccModWheel val := if_pos h

/-- From 120 on no controller number in force is a named one (R244). -/
theorem notMem_namedControllers_of_ge {n : Nat} (h : 120 ≤ n) : n ∉ namedControllers cfg :=
  notMem_namedControllers_iff.2 (show n ≠ 1 ∧ n ≠ 64 ∧ n ≠ 74 ∧ n ≠ 75 by omega)

/-- Settles O23: a control change is the row its number decodes to, so each clause is one branch of the decoder. -/
theorem controlChangeDispatch : Obligations.ControlChangeDispatch := by
  unfold Obligations.ControlChangeDispatch
  intro ctl val s
  refine ⟨?_, ?_, ?_, ?_, fun h _ => ?_, fun h => ?_, ⟨_, rfl⟩, fun c => ⟨execIn_midiCc c ctl val s, fun h => ?_,
    fun h => ?_⟩⟩
  · rintro rfl; rfl
  · rintro rfl; rfl
  · rintro rfl; rfl
  · rintro rfl; rfl
  · exact exec_midiCc_of_decode (decodeCcIn_channelMode val (notMem_namedControllers_of_ge h) h) s
  · exact exec_midiCc_of_decode (decodeCcIn_other val h) s
  · rw [execIn_midiCc, decodeCcIn_modWheel val h]
  · rw [execIn_midiCc, decodeCcIn_other val h]; rfl

/-! ## A message by its status nibble -/

theorem toNat_statusNibble (b0 : BitVec 8) : (b0.extractLsb' 4 4).toNat = b0.toNat / 16 := by
  rw [BitVec.extractLsb'_toNat, Nat.shiftRight_eq_div_pow]
  omega

/-- A message is the row it decodes to (R240, R84): the meaning tests the status nibble that the decoder tests. -/
theorem execIn_midi (c : Config) (b0 b1 b2 : BitVec 8) (s : State) :
    execIn c (.midi b0 b1 b2) s = execIn c (decodeMidiIn c b0 b1 b2) s := by
  show midiMessage c b0 b1 b2 s = _
  unfold midiMessage decodeMidiIn
  rw [toNat_statusNibble, BitVec.setWidth_eq_extractLsb' (by decide), BitVec.setWidth_eq_extractLsb' (by decide)]
  dsimp only
  split
  case h_1 h => rw [h]; rfl
  case h_2 h => rw [h]; rfl
  case h_3 h => rw [h]; exact (execIn_decodeCcIn ..).symm
  case h_4 h => rw [h]; rfl
  case h_5 h => rw [h]; rfl
  case h_6 h8 h9 hB hD hE =>
    split
    case h_1 h => exact (h8 h).elim
    case h_2 h => exact (h9 h).elim
    case h_4 h => exact (hB h).elim
    case h_6 h => exact (hD h).elim
    case h_7 h => exact (hE h).elim
    all_goals rfl

theorem exec_midi_eq_decodeMidi (b0 b1 b2 : BitVec 8) (s : State) :
    exec (.midi b0 b1 b2) s = exec (decodeMidi b0 b1 b2) s := by
  rw [← execIn_cfg, execIn_midi, execIn_cfg]; rfl

/-- A velocity other than 0 makes the message SYN.NOTEON (R242). -/
theorem exec_midiNoteOn_of_ne_zero {vel : BitVec 7} (h : vel ≠ 0) (note : BitVec 7) (s : State) :
    exec (.midiNoteOn note vel) s = exec (.synNoteOn note vel) s := if_neg h

/-- No row but the two note messages has a precondition. -/
theorem exec_midiRow_completes {status : BitVec 4} (h8 : status.toNat ≠ 0x8) (h9 : status.toNat ≠ 0x9)
    (d1 d2 : BitVec 7) (s : State) : ∃ t, exec (midiRow cfg status d1 d2) s = .next t := by
  unfold midiRow
  split
  case h_1 h => exact absurd h h8
  case h_2 h => exact absurd h h9
  case h_4 => exact ⟨_, exec_decodeCcIn d1 d2 s⟩
  all_goals exact ⟨_, rfl⟩

/-- Settles O22: a message is the row of its status nibble, and each clause is one branch of `midiRow`. -/
theorem midiDispatch : Obligations.MidiDispatch := by
  unfold Obligations.MidiDispatch
  intro b0 b1 b2 s
  dsimp only
  have hrow : exec (.midi b0 b1 b2) s =
      exec (midiRow cfg (b0.extractLsb' 4 4) (b1.extractLsb' 0 7) (b2.extractLsb' 0 7)) s := by
    rw [exec_midi_eq_decodeMidi, decodeMidi, decodeMidiIn_eq_midiRow]
  refine ⟨rfl, fun h => exec_midiNoteOn_of_ne_zero h _ s, rfl, fun h => ?_, fun h => ?_, fun h => ?_, fun h => ?_,
    fun h => ?_, fun h => ?_, fun h8 h9 => ?_, exec_midi_eq_decodeMidi b0 b1 b2 s⟩
  · rw [hrow, midiRow, h]; rfl
  · rw [hrow, midiRow, h]; rfl
  · rw [hrow, midiRow, h]; exact exec_decodeCcIn _ _ s
  · rw [hrow, midiRow, h]; rfl
  · rw [hrow, midiRow, h]; rfl
  · rw [hrow]
    exact exec_midiRow_ignored _ _ s <| h.imp_right <| Or.imp BitVec.eq_of_toNat_eq <|
      Or.imp BitVec.eq_of_toNat_eq BitVec.eq_of_toNat_eq
  · rw [hrow]
    exact exec_midiRow_completes h8 h9 _ _ s

/-! ## The messages that write one scalar -/

section Scalar

variable (c : Config) (s : State)

theorem execIn_midiBend (d1 d2 : BitVec 7) :
    execIn c (.midiBend d1 d2) s =
      .next { s with
        pitchBend := c.exp (c.pbCoeff.neg.mul (F32.ofInt ((d1.toNat + 128 * d2.toNat : Int) - 8192))) } := rfl

theorem execIn_midiPressure (val : BitVec 7) :
    execIn c (.midiPressure val) s =
      .next { s with pressure := c.pressureCoeff.mul (F32.ofInt (val.toNat * val.toNat)) } := rfl

theorem execIn_ccModWheel (val : BitVec 7) :
    execIn c (.ccModWheel val) s =
      .next { s with modWheel := c.modwheelCoeff.mul (F32.ofInt (val.toNat * val.toNat)) } := rfl

theorem execIn_ccFilterPos (val : BitVec 7) :
    execIn c (.ccFilterPos val) s = .next { s with filterCtl := c.filterCcPos.mul (F32.ofInt val.toNat) } := rfl

theorem execIn_ccFilterNeg (val : BitVec 7) :
    execIn c (.ccFilterNeg val) s = .next { s with filterCtl := c.filterCcNeg.mul (F32.ofInt val.toNat) } := rfl

end Scalar

/-- The bend coefficient in force with the sign of R243. -/
theorem pbCoeff_neg_cfg : cfg.pbCoeff.neg = ⟨0xB76C97A1⟩ := by decide

/-- Settles O24: the messages in force are those of any configuration at the coefficients of R8. -/
theorem scalarMessages : Obligations.ScalarMessages := by
  unfold Obligations.ScalarMessages
  refine fun s => ⟨fun d1 d2 => ?_, fun val => execIn_midiPressure cfg s val, fun val => execIn_ccModWheel cfg s val,
    fun val => execIn_ccFilterPos cfg s val, fun val => execIn_ccFilterNeg cfg s val, fun c val d1 d2 =>
    ⟨execIn_midiBend c s d1 d2, execIn_midiPressure c s val, execIn_ccModWheel c s val, execIn_ccFilterPos c s val,
      execIn_ccFilterNeg c s val⟩⟩
  rw [← execIn_cfg, execIn_midiBend, pbCoeff_neg_cfg]

/-! ## The sustain pedal -/

/-- A note is SUSTAIN when it reads as -1 (R27). -/
theorem eq_sustain_iff {note : BitVec 8} : note = cfg.sustain ↔ note.toInt = -1 := BitVec.toInt_inj.symm

theorem pedalUpVoice_cfg (v : Voice) :
    pedalUpVoice cfg v = if v.note.toInt = -1 then { voiceRelease v with note := 0 } else v := by
  simp only [pedalUpVoice, beq_iff_eq, eq_sustain_iff]

theorem sustainCc_down {c : Config} {val : BitVec 7} (h : c.pedalThreshold ≤ val.toNat) (s : State) :
    sustainCc c val s = { s with sustainPedal := true } := if_pos h

theorem sustainCc_up {c : Config} {val : BitVec 7} (h : val.toNat < c.pedalThreshold) (s : State) :
    sustainCc c val s = { s.mapVoices (pedalUpVoice c) with sustainPedal := false } := if_neg (Nat.not_le.2 h)

/-- Settles O25: the two branches at the threshold; the sweep maps `pedalUpVoice` over the bank. -/
theorem sustainPedal : Obligations.SustainPedal := by
  unfold Obligations.SustainPedal
  intro val s
  simp only [exec_ccSustain, execCcSustain, execCcSustainIn]
  refine ⟨fun h => ?_, fun h => ⟨_, rfl, ?_, fun v => ?_⟩⟩
  · rw [sustainCc_down (c := cfg) h]
  · rw [sustainCc_up (c := cfg) h]
    rfl
  · rw [sustainCc_up (c := cfg) h]
    exact (s.voice_mapVoices (pedalUpVoice cfg) v).trans (pedalUpVoice_cfg _)

/-! ## Channel mode -/

theorem channelModeCc_voice (c : Config) (s : State) (v : VoiceIx) :
    (channelModeCc c s).voice v = voiceReset c (s.voice v) := Bank.get_map ..

/-- Settles O26: the bank of the next state is VOICE.RESET of every voice; the value and the low bits are not read. -/
theorem channelMode : Obligations.ChannelMode := by
  unfold Obligations.ChannelMode
  refine fun _ s => ⟨channelModeCc cfg s, rfl, rfl, fun v => ?_⟩
  rw [channelModeCc_voice]
  rfl

end Sys2Proof.Machine
end

section
/-! SUPPORT and PROOFS. The choice of a voice and the mono held-note queue (spec 47_voice_allocation.md R273, R275, R280
to R284): the scans of SYN.FINDFREE and SYN.NEXTQ by induction over the voices scanned so far. -/

namespace Sys2Proof

/-- `<` of values that are no NaN is transitive, and chains with a failed `<`. -/
theorem F32.lt_of_lt_of_not_lt {a b d : F32} (hab : a.lt b = true) (hd : d.isNaN = false) (hdb : d.lt b = false) :
    a.lt d = true := by
  simp only [F32.lt, Bool.and_eq_true, Bool.not_eq_true', decide_eq_true_eq] at hab
  obtain ⟨⟨ha, hb⟩, hlt⟩ := hab
  rw [F32.lt_eq_place hd hb, decide_eq_false_iff_not] at hdb
  rw [F32.lt_eq_place ha hd, decide_eq_true_iff]
  omega

theorem F32.not_isNaN_of_lt {a b : F32} (h : a.lt b = true) : a.isNaN = false ∧ b.isNaN = false := by
  simp only [F32.lt, Bool.and_eq_true, Bool.not_eq_true'] at h
  exact h.1

theorem F32.lt_trans {a b d : F32} (hab : a.lt b = true) (hbd : b.lt d = true) : a.lt d = true := by
  have hd := (F32.not_isNaN_of_lt hbd).2
  refine F32.lt_of_lt_of_not_lt hab hd ?_
  simp only [F32.lt, Bool.and_eq_true, decide_eq_true_eq] at hbd
  rw [F32.lt_eq_place hd (F32.not_isNaN_of_lt hab).2, decide_eq_false_iff_not]
  omega

theorem F32.not_lt_of_lt {a b : F32} (hab : a.lt b = true) : b.lt a = false := by
  obtain ⟨ha, hb⟩ := F32.not_isNaN_of_lt hab
  rw [F32.lt_eq_place ha hb, decide_eq_true_iff] at hab
  rw [F32.lt_eq_place hb ha, decide_eq_false_iff_not]
  omega

/-- What a scan of the eight for any match says. -/
theorem Bank.any_toList {α : Type} {b : Bank α} {p : α → Bool} : b.toList.any p = true ↔ ∃ i, p (b.get i) = true := by
  simp only [List.any_eq_true, Bank.mem_toList]
  constructor
  · rintro ⟨_, ⟨i, rfl⟩, hp⟩
    exact ⟨i, hp⟩
  · rintro ⟨i, hp⟩
    exact ⟨_, ⟨i, rfl⟩, hp⟩

end Sys2Proof

namespace Sys2Proof.Machine

/-! ## SYN.FINDFREE -/

/-- A voice SYN.FINDFREE may choose (R273): below the bound and not in attack. -/
def Eligible (c : Config) (voices : Bank Voice) (i : VoiceIx) : Prop :=
  (voices.get i).env.level.lt c.findBound = true ∧ isInAttack c (voices.get i).env = false

/-- `i` is the choice among the voices of `l`: no eligible one is quieter, and those before it are louder. -/
def QuietestOf (c : Config) (voices : Bank Voice) (l : List VoiceIx) (i : VoiceIx) : Prop :=
  Eligible c voices i ∧ i ∈ l ∧
    ∀ j ∈ l, Eligible c voices j →
      (voices.get j).env.level.lt (voices.get i).env.level = false ∧
        (j < i → (voices.get i).env.level.lt (voices.get j).env.level = true)

/-- One voice of the scan of SYN.FINDFREE (R273). -/
def scanFree (c : Config) (voices : Bank Voice) (best : VoiceIx × F32) (i : VoiceIx) : VoiceIx × F32 :=
  if (voices.get i).env.level.lt best.2 && !isInAttack c (voices.get i).env then (i, (voices.get i).env.level) else best

theorem findFree_eq_foldl (c : Config) (voices : Bank Voice) :
    findFree c voices = (voiceOrder.foldl (scanFree c voices) (0, c.findBound)).1 := rfl

/-- After the voices of `l` the scan carries nothing, or the choice among them with its level. -/
def Scanned (c : Config) (voices : Bank Voice) (l : List VoiceIx) (best : VoiceIx × F32) : Prop :=
  ((∀ i ∈ l, ¬Eligible c voices i) ∧ best = (0, c.findBound)) ∨
    (QuietestOf c voices l best.1 ∧ best.2 = (voices.get best.1).env.level)

/-- A voice the scan does not take is not eligible, or not quieter than the choice so far. -/
theorem Scanned.skip {c : Config} {voices : Bank Voice} {l : List VoiceIx} {best : VoiceIx × F32} {i : VoiceIx}
    (h : Scanned c voices l best) (hi : ∀ j ∈ l, j < i)
    (hskip : ¬((voices.get i).env.level.lt best.2 = true ∧ isInAttack c (voices.get i).env = false)) :
    Scanned c voices (l ++ [i]) best := by
  rcases h with ⟨hnone, rfl⟩ | ⟨⟨helig, hmem, hmin⟩, hlevel⟩
  · refine .inl ⟨fun j hj => ?_, rfl⟩
    rcases List.mem_append.1 hj with hj | hj
    · exact hnone j hj
    · rw [List.mem_singleton.1 hj]
      exact hskip
  · refine .inr ⟨⟨helig, List.mem_append_left _ hmem, fun j hj hjelig => ?_⟩, hlevel⟩
    rcases List.mem_append.1 hj with hj | hj
    · exact hmin j hj hjelig
    · obtain rfl := List.mem_singleton.1 hj
      refine ⟨Bool.eq_false_iff.2 fun hlt => hskip ⟨by rwa [hlevel], hjelig.2⟩, fun hji => ?_⟩
      exact absurd (hi best.1 hmem) (lt_asymm hji)

/-- A voice the scan takes is quieter than every eligible one before it. -/
theorem Scanned.take {c : Config} {voices : Bank Voice} {l : List VoiceIx} {best : VoiceIx × F32} {i : VoiceIx}
    (h : Scanned c voices l best) (hlt : (voices.get i).env.level.lt best.2 = true)
    (hattack : isInAttack c (voices.get i).env = false) :
    Scanned c voices (l ++ [i]) (i, (voices.get i).env.level) := by
  have hself : (voices.get i).env.level.lt (voices.get i).env.level = false := by simp [F32.lt]
  have hbelow : (voices.get i).env.level.lt c.findBound = true ∧
      ∀ j ∈ l, Eligible c voices j → (voices.get i).env.level.lt (voices.get j).env.level = true := by
    rcases h with ⟨hnone, rfl⟩ | ⟨⟨helig, -, hmin⟩, hlevel⟩
    · exact ⟨hlt, fun j hj hjelig => absurd hjelig (hnone j hj)⟩
    · rw [hlevel] at hlt
      exact ⟨F32.lt_trans hlt helig.1, fun j hj hjelig =>
        F32.lt_of_lt_of_not_lt hlt (F32.not_isNaN_of_lt hjelig.1).1 (hmin j hj hjelig).1⟩
  refine .inr ⟨⟨⟨hbelow.1, hattack⟩, List.mem_append_right _ (List.mem_singleton_self i), fun j hj hjelig => ?_⟩, rfl⟩
  rcases List.mem_append.1 hj with hj | hj
  · exact ⟨F32.not_lt_of_lt (hbelow.2 j hj hjelig), fun _ => hbelow.2 j hj hjelig⟩
  · obtain rfl := List.mem_singleton.1 hj
    exact ⟨hself, fun hlt => absurd hlt (lt_irrefl _)⟩

/-- The scan over voices in ascending order carries the choice among them. -/
theorem scanned_foldl (c : Config) (voices : Bank Voice) (l : List VoiceIx) (hl : l.Pairwise (· < ·)) :
    Scanned c voices l (l.foldl (scanFree c voices) (0, c.findBound)) := by
  induction l using List.reverseRecOn with
  | nil => exact .inl ⟨by simp, rfl⟩
  | append_singleton l i ih =>
    obtain ⟨hsorted, -, hbefore⟩ := List.pairwise_append.1 hl
    rw [List.foldl_append, List.foldl_cons, List.foldl_nil, scanFree]
    split
    next htake =>
      rw [Bool.and_eq_true, Bool.not_eq_true'] at htake
      exact (ih hsorted).take htake.1 htake.2
    next hskip =>
      rw [Bool.and_eq_true, Bool.not_eq_true'] at hskip
      exact (ih hsorted).skip (fun j hj => hbefore j hj i (List.mem_singleton_self i)) hskip

theorem mem_voiceOrder (i : VoiceIx) : i ∈ voiceOrder := by revert i; decide

/-- SYN.FINDFREE returns the choice among all voices, or voice 0 when none is eligible. -/
theorem findFree_cases (c : Config) (voices : Bank Voice) :
    ((∀ i, ¬Eligible c voices i) ∧ findFree c voices = 0) ∨ QuietestOf c voices voiceOrder (findFree c voices) := by
  rw [findFree_eq_foldl]
  rcases scanned_foldl c voices voiceOrder (by decide) with ⟨hnone, hbest⟩ | ⟨hbest, -⟩
  · exact .inl ⟨fun i => hnone i (mem_voiceOrder i), by rw [hbest]⟩
  · exact .inr hbest

/-- Settles O38: the scan has seen every voice, so its choice is the one of R273. -/
theorem findFree_spec : Obligations.FindFree := by
  unfold Obligations.FindFree
  refine fun s => ⟨findFree cfg s.voices, rfl, ?_⟩
  rcases findFree_cases cfg s.voices with ⟨hnone, hzero⟩ | ⟨helig, -, hmin⟩
  · exact ⟨fun ⟨i, hi⟩ => absurd hi (hnone i), fun _ => hzero⟩
  · exact ⟨fun _ => ⟨helig, fun i hi => (hmin i (mem_voiceOrder i) hi).1, fun i hi => (hmin i (mem_voiceOrder i) hi).2⟩,
      fun hnone => absurd helig (hnone _)⟩

/-! ## SYN.LEGATO -/

/-- Settles O40: the scan of the eight notes with the signed test of R16 (d). -/
theorem legato_spec : Obligations.Legato := by
  unfold Obligations.Legato
  refine fun s => ⟨legato s.voices, rfl, ?_⟩
  simp only [legato, Bank.any_toList, isHeld_iff]
  rfl

/-! ## SYN.SHIFTQ -/

theorem exec_synShiftQ_eq (s : State) : exec .synShiftQ s = .next (shiftQ s) := rfl

theorem shiftQ_voice_succ (s : State) {v w : VoiceIx} (h : v.val = w.val + 1) :
    (shiftQ s).voice v = shiftedSlot (s.voice w) (s.voice v) := by
  match v, w, h with
  | 1, 0, _ | 2, 1, _ | 3, 2, _ | 4, 3, _ | 5, 4, _ | 6, 5, _ | 7, 6, _ => rfl

/-! ## SYN.NEXTQ -/

/-- A scan that keeps the last match finds the first one from the other end. -/
theorem foldl_last_eq_find? {α : Type} (p : α → Bool) (l : List α) :
    l.foldl (fun found i => if p i then some i else found) none = l.reverse.find? p := by
  induction l using List.reverseRecOn with
  | nil => rfl
  | append_singleton l i ih =>
    rw [List.foldl_append, List.foldl_cons, List.foldl_nil, ih, List.reverse_append, List.reverse_singleton,
      List.singleton_append, List.find?_cons]
    cases p i <;> rfl

/-- The slots of the queue, the newest entry first (R281). -/
def queueSlots : List VoiceIx := [1, 2, 3, 4, 5, 6, 7]

theorem nextQSlot_eq_find? (voices : Bank Voice) :
    nextQSlot voices = queueSlots.find? fun i => isHeld (voices.get i).note :=
  foldl_last_eq_find? (fun i : VoiceIx => isHeld (voices.get i).note) [7, 6, 5, 4, 3, 2, 1]

theorem queueSlots_getElem (j : Nat) (hj : j < queueSlots.length) : queueSlots[j].val = j + 1 := by
  revert j
  decide

theorem mem_queueSlots {v : VoiceIx} : v ∈ queueSlots ↔ 1 ≤ v.val := by
  revert v
  decide

/-- SYN.NEXTQ pops the lowest slot of 1 to 7 that holds a key (R282). -/
theorem nextQSlot_eq_some {voices : Bank Voice} {v : VoiceIx} (hv : 1 ≤ v.val) (hheld : 0 < (voices.get v).note.toInt)
    (hlower : ∀ w : VoiceIx, 1 ≤ w.val → w < v → ¬0 < (voices.get w).note.toInt) : nextQSlot voices = some v := by
  rw [nextQSlot_eq_find?, List.find?_eq_some_iff_getElem]
  have hlen : v.val - 1 < queueSlots.length := by
    have : queueSlots.length = 7 := rfl
    omega
  refine ⟨(isHeld_iff _).2 hheld, v.val - 1, hlen, Fin.ext ?_, fun j hj => ?_⟩
  · rw [queueSlots_getElem]
    omega
  · have hslot := queueSlots_getElem j (hj.trans hlen)
    rw [Bool.not_eq_true', Bool.eq_false_iff, Ne, isHeld_iff]
    exact hlower _ (by omega) (Fin.lt_def.2 (by omega))

theorem nextQSlot_eq_none {voices : Bank Voice} (h : ∀ v : VoiceIx, 1 ≤ v.val → ¬0 < (voices.get v).note.toInt) :
    nextQSlot voices = none := by
  rw [nextQSlot_eq_find?, List.find?_eq_none]
  exact fun v hv => by rw [isHeld_iff]; exact h v (mem_queueSlots.1 hv)

theorem nextQNote_of_some {voices : Bank Voice} {v : VoiceIx} (h : nextQSlot voices = some v) :
    nextQNote voices = (voices.get v).note := by
  rw [nextQNote, h]

theorem nextQNote_of_none {voices : Bank Voice} (h : nextQSlot voices = none) : nextQNote voices = 0 := by
  rw [nextQNote, h]

theorem nextQPop_of_some {s : State} {v : VoiceIx} (h : nextQSlot s.voices = some v) :
    nextQPop s = s.setVoice v { s.voice v with note := 0 } := by
  rw [nextQPop, h]

theorem nextQPop_of_none {s : State} (h : nextQSlot s.voices = none) : nextQPop s = s := by
  rw [nextQPop, h]

theorem exec_synNextQ_eq (s : State) :
    exec .synNextQ s = .next ((nextQPop s).setResult (.note (nextQNote s.voices))) := rfl

theorem exec_synNextQ_of_some {s : State} {v : VoiceIx} (h : nextQSlot s.voices = some v) :
    exec .synNextQ s = .next ((s.setVoice v { s.voice v with note := 0 }).setResult (.note (s.voice v).note)) := by
  rw [exec_synNextQ_eq, nextQNote_of_some h, nextQPop_of_some h]
  rfl

/-- Settles O44: SYN.SHIFTQ slot by slot; SYN.NEXTQ by the slot its scan ends with. -/
theorem queueOperations : Obligations.QueueOperations := by
  unfold Obligations.QueueOperations
  refine ⟨fun s => ⟨shiftQ s, rfl, rfl, rfl, fun v w h => shiftQ_voice_succ s h⟩,
    fun s => ⟨fun v hv hheld hlower => exec_synNextQ_of_some (nextQSlot_eq_some hv hheld hlower), fun hempty => ?_⟩⟩
  have hnone : nextQSlot s.voices = none := nextQSlot_eq_none hempty
  rw [exec_synNextQ_eq, nextQNote_of_none hnone, nextQPop_of_none hnone]
  rfl

/-- Settles O45: the push leaves the sounding note in slot 1, so the pop takes slot 1 and no other. -/
theorem heldNotesAreAStack : Obligations.HeldNotesAreAStack := by
  unfold Obligations.HeldNotesAreAStack
  intro s hheld
  have hnote : ∀ v w : VoiceIx, v.val = w.val + 1 → ((shiftQ s).voice v).note = (s.voice w).note :=
    fun v w h => by rw [shiftQ_voice_succ s h]; rfl
  have hslot : nextQSlot (shiftQ s).voices = some 1 :=
    nextQSlot_eq_some le_rfl hheld fun w hw hlt => absurd (Fin.lt_def.1 hlt) (not_lt.2 hw)
  refine ⟨_, _, exec_synShiftQ_eq s, exec_synNextQ_of_some hslot, rfl, rfl, rfl, fun v w hw hv => ?_⟩
  have hne : (1 : VoiceIx) ≠ v := fun h =>
    absurd ((congrArg Fin.val h).trans hv) (Nat.lt_add_of_pos_left hw).ne
  rw [State.voice_setResult, State.voice_setVoice_other _ hne, hnote v w hv]

end Sys2Proof.Machine
end

section
/-! SUPPORT and PROOFS. The doubling loop of SYN.CALCPERIOD (spec 47_voice_allocation.md R274, 48_host_commands.md
R305): a positive first line doubles exactly until the period is long enough, at the latest at infinity; a first line that is
not positive is a zero, and doubles to itself. -/

namespace Sys2Proof

/-! ## Positive values -/

theorem F32.ge_of_not_lt {a b : F32} (ha : a.isNaN = false) (hb : b.isNaN = false) (h : a.lt b = false) :
    a.ge b = true := by
  rw [F32.lt_eq_place ha hb, decide_eq_false_iff_not] at h
  rw [F32.ge, F32.le_eq_place hb ha, decide_eq_true_iff]
  omega

theorem F32.gt_zero_iff {x : F32} : x.gt F32.zero = true ↔ x.isNaN = false ∧ 0 < x.place := by
  simp only [F32.gt, F32.lt, Bool.and_eq_true, Bool.not_eq_true', decide_eq_true_eq]
  exact ⟨fun h => ⟨h.1.2, h.2⟩, fun h => ⟨⟨rfl, h.1⟩, h.2⟩⟩

theorem F32.sign_of_place_pos {x : F32} (h : 0 < x.place) : x.sign = false := by
  refine Bool.eq_false_iff.2 fun hs => ?_
  rw [F32.place_of_sign hs] at h
  omega

theorem F32.mag_of_place_nonneg {x : F32} (h : 0 ≤ x.place) : (x.mag : Int) = x.place := by
  rw [← F32.natAbs_place]
  omega

theorem F32.isFinite_or_isInf {x : F32} (h : x.isNaN = false) : x.isFinite = true ∨ x.isInf = true := by
  rw [F32.isFinite_iff, F32.isInf_iff, ← le_iff_lt_or_eq]
  simpa [F32.isNaN] using h

theorem F32.not_isZero_of_place_pos {x : F32} (h : 0 < x.place) : x.isZero = false := by
  rw [Bool.eq_false_iff, Ne, F32.isZero_iff]
  have := F32.mag_of_place_nonneg h.le
  omega

theorem F32.gt_zero_infinity : (F32.ofSignMag false F32.infMag).gt F32.zero = true := by decide

/-- A value without sign is positive or `+0`. -/
theorem F32.gt_zero_or_eq_zero {m : Nat} (h : m ≤ F32.infMag) :
    (F32.ofSignMag false m).gt F32.zero = true ∨ F32.ofSignMag false m = F32.zero := by
  have hlt : m < 2 ^ 31 := h.trans_lt (by decide)
  rcases Nat.eq_zero_or_pos m with rfl | hpos
  · exact .inr (by decide)
  · refine .inl (F32.gt_zero_iff.2 ⟨?_, ?_⟩)
    · simpa [F32.isNaN, F32.mag_ofSignMag _ hlt] using h
    · rw [F32.place_ofSignMag _ hlt]
      simpa using hpos

/-- A product of positive values is positive, or underflows to `+0`. -/
theorem F32.mul_of_gt_zero {a b : F32} (ha : a.gt F32.zero = true) (hb : b.gt F32.zero = true) :
    (a.mul b).gt F32.zero = true ∨ a.mul b = F32.zero := by
  obtain ⟨hna, hpa⟩ := F32.gt_zero_iff.1 ha
  obtain ⟨hnb, hpb⟩ := F32.gt_zero_iff.1 hb
  have hsign : (a.sign != b.sign) = false := by rw [F32.sign_of_place_pos hpa, F32.sign_of_place_pos hpb]; rfl
  by_cases hinf : a.isInf = true ∨ b.isInf = true
  · rw [F32.mul_of_isInf hna hnb hinf, F32.not_isZero_of_place_pos hpa, F32.not_isZero_of_place_pos hpb, hsign]
    exact .inl F32.gt_zero_infinity
  · obtain ⟨hia, hib⟩ := not_or.1 hinf
    rw [F32.mul_of_finite ((F32.isFinite_or_isInf hna).resolve_right hia)
      ((F32.isFinite_or_isInf hnb).resolve_right hib), hsign]
    exact F32.gt_zero_or_eq_zero (F32.roundMag_le_infMag _ _)

theorem F32.mul_zero_of_gt_zero {a : F32} (ha : a.gt F32.zero = true) (hfin : a.isFinite = true) :
    a.mul F32.zero = F32.zero := by
  rw [F32.mul_of_finite hfin rfl, F32.sign_of_place_pos (F32.gt_zero_iff.1 ha).2,
    F32.absUnits_of_isZero (x := F32.zero) rfl, Nat.mul_zero]
  rfl

/-! ## Doubling -/

/-- The doubled value of the loop of R274. -/
def F32.double (x : F32) : F32 := x.add x

/-- Twice a magnitude's value is a magnitude's value: the exponent, or below it the fraction, has room. -/
theorem F32.exists_double_unitsOfMag (m : Nat) : ∃ n, F32.unitsOfMag n = 2 * F32.unitsOfMag m := by
  by_cases hsmall : m < 2 ^ 23
  · exact ⟨2 * m, by rw [F32.unitsOfMag_of_le (by omega), F32.unitsOfMag_of_le (by omega)]⟩
  · obtain ⟨k, q, rfl, hlow, hhigh⟩ : ∃ k q, m = k * 2 ^ 23 + q ∧ 2 ^ 23 ≤ q ∧ q < 2 ^ 24 :=
      ⟨m / 2 ^ 23 - 1, 2 ^ 23 + m % 2 ^ 23, by omega, by omega, by omega⟩
    refine ⟨(k + 1) * 2 ^ 23 + q, ?_⟩
    rw [F32.unitsOfMag_split (.inr hlow) hhigh.le, F32.unitsOfMag_split (.inr hlow) hhigh.le, pow_succ]
    ring

/-- Infinity stands where 2^277 units of 2^-149 would. -/
theorem F32.unitsOfMag_infMag : F32.unitsOfMag F32.infMag = 2 ^ 277 := by
  rw [show (277 : Nat) = 23 + 254 from rfl, pow_add]
  exact F32.unitsOfMag_split (k := 254) (.inr le_rfl) (by decide)

/-- Doubling is exact up to infinity. -/
theorem F32.min_le_unitsOfMag_roundMag_double (m : Nat) :
    min (2 * F32.unitsOfMag m) (2 ^ 277) ≤ F32.unitsOfMag (F32.roundMag (2 * F32.unitsOfMag m) 1) := by
  obtain ⟨n, hn⟩ := F32.exists_double_unitsOfMag m
  rw [← hn]
  rcases le_total n F32.infMag with hle | hge
  · rw [F32.roundMag_exact_one hle]
    exact min_le_left _ _
  · have hround : F32.infMag ≤ F32.roundMag (F32.unitsOfMag n) 1 := by
      conv_lhs => rw [← F32.roundMag_exact_one (m := F32.infMag) le_rfl]
      exact F32.roundMag_mono Nat.one_pos Nat.one_pos (Nat.mul_le_mul_right 1 (F32.unitsOfMag_le_iff.2 hge))
    rw [← F32.unitsOfMag_infMag]
    exact (min_le_right _ _).trans (F32.unitsOfMag_le_iff.2 hround)

/-- The double of a positive value is positive, and twice as large or infinite. -/
theorem F32.double_of_gt_zero {x : F32} (h : x.gt F32.zero = true) :
    x.double.gt F32.zero = true ∧ min (2 * x.absUnits) (2 ^ 277) ≤ x.double.absUnits := by
  obtain ⟨hnan, hpos⟩ := F32.gt_zero_iff.1 h
  have hsign := F32.sign_of_place_pos hpos
  rcases F32.isFinite_or_isInf hnan with hfin | hinf
  · have hunits : x.units + x.units = (2 * x.absUnits : Nat) := by rw [F32.units_of_not_sign hsign]; push_cast; ring
    have hplace : x.double.place = F32.roundMag (2 * x.absUnits) 1 := by
      rw [F32.double, F32.place_add hfin hfin, hunits]
      rfl
    have hmag : x.double.mag = F32.roundMag (2 * x.absUnits) 1 := by
      rw [← F32.natAbs_place, hplace, Int.natAbs_natCast]
    have hgrow : min (2 * x.absUnits) (2 ^ 277) ≤ x.double.absUnits := by
      rw [F32.absUnits, F32.absUnits, hmag]
      exact F32.min_le_unitsOfMag_roundMag_double x.mag
    have hne : x.absUnits ≠ 0 := mt F32.absUnits_eq_zero_iff.1 (by simp [F32.not_isZero_of_place_pos hpos])
    have hne' : x.double.mag ≠ 0 := fun hz => by
      rw [F32.absUnits_of_isZero (F32.isZero_iff.2 hz)] at hgrow
      omega
    exact ⟨F32.gt_zero_iff.2 ⟨F32.not_isNaN_add hfin hfin, by rw [hplace, ← hmag]; omega⟩, hgrow⟩
  · have hself : x.double = x := by simp [F32.double, F32.add_isInf_isInf hinf hinf]
    have htop : x.absUnits = 2 ^ 277 := by rw [F32.absUnits, F32.isInf_iff.1 hinf, F32.unitsOfMag_infMag]
    rw [hself, htop]
    exact ⟨h, min_le_right _ _⟩

theorem F32.iterate_double_of_gt_zero {x : F32} (h : x.gt F32.zero = true) (j : Nat) :
    (F32.double^[j] x).gt F32.zero = true ∧ min (2 ^ j) (2 ^ 277) ≤ (F32.double^[j] x).absUnits := by
  induction j with
  | zero =>
    have hne : x.absUnits ≠ 0 := mt F32.absUnits_eq_zero_iff.1
      (by simp [F32.not_isZero_of_place_pos (F32.gt_zero_iff.1 h).2])
    exact ⟨h, (min_le_left _ _).trans (Nat.one_le_iff_ne_zero.2 hne)⟩
  | succ j ih =>
    obtain ⟨hpos, hgrow⟩ := F32.double_of_gt_zero ih.1
    rw [Function.iterate_succ_apply']
    refine ⟨hpos, le_trans ?_ hgrow⟩
    have := ih.2
    rw [pow_succ]
    generalize (2 : Nat) ^ j = u at *
    omega

/-- The 277th double of a positive value is infinite. -/
theorem F32.isInf_iterate_double {x : F32} (h : x.gt F32.zero = true) : (F32.double^[277] x).isInf = true := by
  obtain ⟨hpos, hgrow⟩ := F32.iterate_double_of_gt_zero h 277
  rw [min_self, ← F32.unitsOfMag_infMag, F32.absUnits, F32.unitsOfMag_le_iff] at hgrow
  refine (F32.isFinite_or_isInf (F32.gt_zero_iff.1 hpos).1).resolve_left ?_
  rw [F32.isFinite_iff]
  omega

end Sys2Proof

namespace Sys2Proof.Machine

/-! ## The loop -/

/-- `detune` in range is positive and finite (R326 (a)). -/
theorem detuneInRange_iff {x : F32} : detuneInRange x = true ↔ x.isFinite = true ∧ x.gt F32.zero = true := by
  rw [detuneInRange, Bool.and_eq_true]

theorem tuneInRange_iff {x : F32} : tuneInRange x = true ↔ x.isNormal = true ∧ x.gt F32.zero = true := by
  rw [tuneInRange, Bool.and_eq_true]

/-- An infinite period is long enough, and so is its detuned companion. -/
theorem periodTooShort_of_isInf {detune per : F32} (hper : per.gt F32.zero = true) (hinf : per.isInf = true)
    (hd : detuneInRange detune = true) : periodTooShort cfg detune per = false := by
  obtain ⟨hnan, hpos⟩ := F32.gt_zero_iff.1 hper
  obtain ⟨-, hdpos⟩ := detuneInRange_iff.1 hd
  obtain ⟨hdnan, hdplace⟩ := F32.gt_zero_iff.1 hdpos
  have hmul : per.mul detune = F32.ofSignMag false F32.infMag := by
    rw [F32.mul_of_isInf hnan hdnan (.inl hinf), F32.not_isZero_of_isInf hinf, F32.not_isZero_of_place_pos hdplace,
      F32.sign_of_place_pos hpos, F32.sign_of_place_pos hdplace]
    rfl
  have hlt : per.lt cfg.minPeriod = false :=
    (F32.compare_isInf_isFinite hinf (by decide)).1.trans (F32.sign_of_place_pos hpos)
  rw [periodTooShort_eq_false, hmul]
  exact ⟨hlt, by decide⟩

theorem iterate_add_self_eq (k : Nat) (x : F32) : (fun y : F32 => y.add y)^[k] x = F32.double^[k] x := rfl

/-- From a positive first line the loop ends within its fuel (R305). -/
theorem doublePeriod_long {detune first : F32} (hfirst : first.gt F32.zero = true) (hd : detuneInRange detune = true) :
    periodTooShort cfg detune (doublePeriod cfg detune 300 first) = false := by
  obtain ⟨k, hk, -, hshort, hend⟩ := doublePeriod_spec cfg detune 300 first
  rcases hk.lt_or_eq with hlt | rfl
  · exact hend hlt
  · have hcontra := hshort 277 (by decide)
    rw [iterate_add_self_eq, periodTooShort_of_isInf (F32.iterate_double_of_gt_zero hfirst 277).1
      (F32.isInf_iterate_double hfirst) hd] at hcontra
    cases hcontra

/-- A zero first line doubles to itself. -/
theorem doublePeriod_zero (c : Config) (detune : F32) (fuel : Nat) :
    doublePeriod c detune fuel F32.zero = F32.zero := by
  induction fuel with
  | zero => rfl
  | succ n ih =>
    have hdouble : F32.zero.add F32.zero = F32.zero := by decide
    rw [doublePeriod, hdouble, ih, ite_self]

/-! ## The first line -/

/-- The first line of SYN.CALCPERIOD with the literals in force. -/
theorem basePeriod_cfg (p : Params) (v : VoiceIx) (note : Int) :
    basePeriod cfg p v note =
      p.tune.value.mul (cfg.exp ((F32.mk 0xBD6C9820).mul
        ((F32.ofInt note).add ((F32.mk 0x3B03126F).mul (F32.ofInt v.val))))) := by
  have hsemi : cfg.semi.neg = ⟨0xBD6C9820⟩ := by decide
  rw [basePeriod, hsemi]
  rfl

/-- The drift of a voice is less than a semitone. -/
theorem drift_bounds (v : VoiceIx) :
    ((F32.mk 0x3B03126F).mul (F32.ofInt v.val)).isFinite = true ∧
      0 ≤ ((F32.mk 0x3B03126F).mul (F32.ofInt v.val)).units ∧
      ((F32.mk 0x3B03126F).mul (F32.ofInt v.val)).units ≤ 2 ^ 149 := by
  revert v
  decide

/-- The exponent of the first line is a number. -/
theorem not_isNaN_exponent (v : VoiceIx) (note : BitVec 7) :
    ((F32.mk 0xBD6C9820).mul ((F32.ofInt note.toNat).add ((F32.mk 0x3B03126F).mul (F32.ofInt v.val)))).isNaN =
      false := by
  obtain ⟨hdfin, hd0, hd1⟩ := drift_bounds v
  have hnote := note.isLt
  obtain ⟨hnunits, hnfin⟩ := F32.units_ofInt (n := (note.toNat : Int)) (by omega)
  obtain ⟨htop, htopfin⟩ := F32.units_ofInt (n := 128) (by decide)
  have hplace := F32.place_add hnfin hdfin
  have hlo := F32.units_nonneg_of_place Nat.one_pos hplace (by omega)
  have hhi := F32.units_ge_of_place Nat.one_pos htopfin hplace (by omega)
  have hzero : F32.zero.units = 0 := rfl
  exact F32.not_isNaN_mul (by decide) (F32.isFinite_of_units (lo := F32.zero) rfl htopfin (by omega) hhi)

/-- A first line that is not positive is `+0`. -/
theorem basePeriod_eq_zero {p : Params} (hp : tuneInRange p.tune.value = true) {v : VoiceIx} {note : BitVec 7}
    (h : (basePeriod cfg p v note.toNat).gt F32.zero = false) : basePeriod cfg p v note.toNat = F32.zero := by
  obtain ⟨hnormal, hpos⟩ := tuneInRange_iff.1 hp
  have hfin : p.tune.value.isFinite = true := (Bool.and_eq_true _ _ ▸ hnormal).1
  rw [basePeriod_cfg] at h ⊢
  rcases freeExp_pos (not_isNaN_exponent v note) with hexp | hexp
  · exact (F32.mul_of_gt_zero hpos hexp).resolve_left (Bool.eq_false_iff.1 h)
  · exact (congrArg _ hexp).trans (F32.mul_zero_of_gt_zero hpos hfin)

/-! ## The refusal of the loop -/

theorem periodRefusal_of_gt_zero {p : Params} {v : VoiceIx} {note : Int} (hd : detuneInRange p.detune.value = true)
    (h : (basePeriod cfg p v note).gt F32.zero = true) : periodRefusal cfg p v note = none :=
  periodRefusal_eq_none.2 (doublePeriod_long h hd)

theorem periodRefusal_of_eq_zero {c : Config} {p : Params} {v : VoiceIx} {note : Int}
    (hmin : c.minPeriod.gt F32.zero = true) (h : basePeriod c p v note = F32.zero) :
    periodRefusal c p v note = some (.paramOutOfRange .periodLoop) := by
  have hzero : calcPeriod c p v note = F32.zero := by rw [calcPeriod, h, doublePeriod_zero]
  have hshort : periodTooShort c p.detune.value F32.zero = true := by
    rw [periodTooShort, show F32.zero.lt c.minPeriod = true from hmin, Bool.true_or]
  rw [periodRefusal, hzero, if_pos hshort]

/-! ## SYN.CALCPERIOD -/

theorem exec_synCalcPeriod_eq (v : VoiceIx) (note : BitVec 7) (s : State) :
    exec (.synCalcPeriod v note) s =
      guarded ((checkReads cfg s.p calcPeriodReads).or (periodRefusal cfg s.p v note.toNat))
        (s.setResult (.f32 (calcPeriod cfg s.p v note.toNat))) := rfl

theorem checkReads_calcPeriodReads {c : Config} {p : Params} (hwt : p.tune.written = true)
    (hwd : p.detune.written = true) (ht : tuneInRange p.tune.value = true) (hd : detuneInRange p.detune.value = true) :
    checkReads c p calcPeriodReads = none := by
  rw [calcPeriodReads, checkReads_cons (id := .tune) hwt ht, checkReads_cons (id := .detune) hwd hd]
  rfl

/-- Settles O39: the loop has ended, so by its condition the period and its companion are long enough; both are numbers,
the one a double of a positive value, the other a product of positive values. -/
theorem calcPeriodEnds : Obligations.CalcPeriodEnds := by
  unfold Obligations.CalcPeriodEnds
  intro v note s first hwt hwd ht hd hfirst
  have hbase : basePeriod cfg s.p v note.toNat = first := basePeriod_cfg ..
  have hrefusal : periodRefusal cfg s.p v note.toNat = none := periodRefusal_of_gt_zero hd (hbase ▸ hfirst)
  obtain ⟨hlong, hlong'⟩ := periodTooShort_eq_false.1 (periodRefusal_eq_none.1 hrefusal)
  obtain ⟨k, -, hper, hshort, -⟩ := doublePeriod_spec cfg s.p.detune.value 300 first
  have hcalc : calcPeriod cfg s.p v note.toNat = F32.double^[k] first := by rw [calcPeriod, hbase, hper]; rfl
  rw [hcalc] at hlong hlong'
  have hpos := (F32.iterate_double_of_gt_zero hfirst k).1
  have hnan : ((F32.double^[k] first).mul s.p.detune.value).isNaN = false := by
    rcases F32.mul_of_gt_zero hpos (detuneInRange_iff.1 hd).2 with hgt | hzero
    · exact (F32.gt_zero_iff.1 hgt).1
    · rw [hzero]; rfl
  refine ⟨F32.double^[k] first, ?_, ⟨k, rfl, fun j hj => Bool.or_eq_true_iff.1 (hshort j hj)⟩, ?_, ?_⟩
  · rw [exec_synCalcPeriod_eq, checkReads_calcPeriodReads hwt hwd ht hd, hrefusal,
      hcalc]
    rfl
  · exact F32.ge_of_not_lt (F32.gt_zero_iff.1 hpos).1 (by decide) hlong
  · exact F32.ge_of_not_lt hnan (by decide) hlong'

end Sys2Proof.Machine
end

section
/-! SUPPORT and PROOFS. Starting and restarting a voice (spec 47_voice_allocation.md R276, R277): each line is one
update of the one voice it names, so the lines in their order are one write of its bank. -/

namespace Sys2Proof.Machine

/-! ## A call on the voice just written -/

section Written
variable (s : State) (v : VoiceIx) (x : Voice)

theorem exec_voiceUpdatePan_setVoice :
    exec (.voiceUpdatePan v) (s.setVoice v x) = .next (s.setVoice v (voiceUpdatePan cfg x)) := by
  simp [execVoiceUpdatePan, execVoiceUpdatePanIn]

theorem exec_oscSquare_setVoice (newPeriod : F32) :
    exec (.oscSquare v .two v .one newPeriod) (s.setVoice v x) =
      .next (s.setVoice v { x with osc2 := oscSquare cfg x.osc2 x.osc1 newPeriod }) := by
  rw [exec_oscSquare, execOscSquare_eq]
  simp [State.onOsc]

theorem exec_envAttack_amp_setVoice :
    exec (.envAttack v .amp) (s.setVoice v x) = .next (s.setVoice v { x with env := envAttack cfg x.env }) := by
  simp [execEnvAttack, execEnvAttackIn, State.onEnv]

theorem exec_envAttack_filt_setVoice :
    exec (.envAttack v .filt) (s.setVoice v x) = .next (s.setVoice v { x with fenv := envAttack cfg x.fenv }) := by
  simp [execEnvAttack, execEnvAttackIn, State.onEnv]

end Written

/-! ## What a boot lets run -/

theorem exec_synStartVoice_eq (v : VoiceIx) (note vel : BitVec 7) (s : State) :
    exec (.synStartVoice v note vel) s =
      guarded ((checkReads cfg s.p (startVoiceReads s)).or (periodRefusal cfg s.p v note.toNat))
        (startVoice cfg v note vel s) := rfl

theorem exec_synRestartMono_eq (note : BitVec 7) (vel : BitVec 8) (s : State) :
    exec (.synRestartMono note vel) s =
      guarded ((checkReads cfg s.p (restartMonoReads vel.toInt)).or (periodRefusal cfg s.p 0 note.toNat))
        (restartMono cfg (noteReg note) vel.toInt s) := rfl

section Ready
variable {s : State} (hready : s.p.ready cfg = true)
include hready

theorem exec_synCalcPeriod_of_ready {v : VoiceIx} {note : BitVec 7}
    (hfirst : (basePeriod cfg s.p v note.toNat).gt F32.zero = true) :
    exec (.synCalcPeriod v note) s = .next (s.setResult (.f32 (calcPeriod cfg s.p v note.toNat))) := by
  rw [exec_synCalcPeriod_eq, checkReads_of_ready hready,
    periodRefusal_of_gt_zero (Params.ready_detune hready) hfirst]
  rfl

theorem exec_synStartVoice_of_ready {v : VoiceIx} {note : BitVec 7}
    (hfirst : (basePeriod cfg s.p v note.toNat).gt F32.zero = true) (vel : BitVec 7) :
    exec (.synStartVoice v note vel) s = .next (startVoice cfg v note vel s) := by
  rw [exec_synStartVoice_eq, checkReads_of_ready hready,
    periodRefusal_of_gt_zero (Params.ready_detune hready) hfirst]
  rfl

theorem exec_synRestartMono_of_ready {note : BitVec 7}
    (hfirst : (basePeriod cfg s.p 0 note.toNat).gt F32.zero = true) (vel : BitVec 8) :
    exec (.synRestartMono note vel) s = .next (restartMono cfg (noteReg note) vel.toInt s) := by
  rw [exec_synRestartMono_eq, checkReads_of_ready hready,
    periodRefusal_of_gt_zero (Params.ready_detune hready) hfirst]
  rfl

end Ready

/-! ## SYN.STARTVOICE -/

/-- The glide's distance with the conditions of R276. -/
theorem noteDistance_eq (s : State) (note : BitVec 7) :
    noteDistance s note =
      if 0 < s.lastNote.toNat ∧ (s.p.glideMode.value = 2 ∨ (s.p.glideMode.value = 1 ∧ legato s.voices = true)) then
        (note.toNat : Int) - s.lastNote.toNat
      else 0 := by
  have hlast : ¬s.lastNote = 0#8 ↔ 0 < s.lastNote.toNat := by
    rw [Nat.pos_iff_ne_zero, Ne, ← BitVec.toNat_inj]
    rfl
  simp [noteDistance, hlast]

/-- The voice of R276 up to UPDATEPAN. -/
def pannedVoice (c : Config) (s : State) (v : VoiceIx) (note : BitVec 7) (old : Voice) : Voice :=
  let per := calcPeriod c s.p v note.toNat
  voiceUpdatePan c
    { old with
      target := per
      period := startPeriod c per s.p.glideBend.value (noteDistance s note)
      note := noteReg note }

/-- The voice of R276 up to the oscillator amplitudes. -/
def loudVoice (c : Config) (s : State) (vel : BitVec 7) (x : Voice) : Voice :=
  let amplitude := s.p.volumeTrim.value.mul (velocityCurve c vel)
  { x with
    osc1 := { x.osc1 with amplitude := amplitude }
    osc2 := { x.osc2 with amplitude := amplitude.mul s.p.oscMix.value } }

/-- The voice of R276 up to OSC.SQUARE, which runs for a pulse wave alone. -/
def pulsedVoice (c : Config) (s : State) (x : Voice) : Voice :=
  { x with
    osc2 :=
      if s.p.vibrato.value.feq F32.zero = true ∧ s.p.pwmDepth.value.gt F32.zero = true then
        oscSquare c x.osc2 x.osc1 x.period
      else x.osc2 }

/-- The voice of R276 up to the attack of the amplitude envelope. -/
def struckVoice (c : Config) (s : State) (vel : BitVec 7) (x : Voice) : Voice :=
  { x with
    cutoff := (baseCutoff c s.sampleRate x.target).mul (velocityFactor c s.p.velocitySensitivity.value vel.toNat)
    env := envAttack c (loadEnv s.p x.env) }

/-- The fresh voice as its parts in the order of R276. -/
theorem startedVoice_eq (c : Config) (s : State) (v : VoiceIx) (note vel : BitVec 7) (old : Voice) :
    startedVoice c s v note vel old =
      let struck := struckVoice c s vel (pulsedVoice c s (loudVoice c s vel (pannedVoice c s v note old)))
      { struck with fenv := envAttack c (loadFenv s.p struck.fenv) } := by
  simp only [startedVoice, struckVoice, pulsedVoice, loudVoice, pannedVoice, Bool.and_eq_true]
  rfl

/-- OSC.SQUARE where it runs, on the voice just written. -/
theorem exec_oscSquare_pulsedVoice (p s : State) (v : VoiceIx) (x : Voice) :
    if p.p.vibrato.value.feq F32.zero = true ∧ p.p.pwmDepth.value.gt F32.zero = true then
      exec (.oscSquare v .two v .one x.period) (s.setVoice v x) = .next (s.setVoice v (pulsedVoice cfg p x))
    else s.setVoice v (pulsedVoice cfg p x) = s.setVoice v x := by
  unfold pulsedVoice
  split
  next => exact exec_oscSquare_setVoice s v x x.period
  next => rfl

/-- A fresh voice and the last note are one write (R276). -/
theorem startVoice_eq_setVoice (c : Config) (v : VoiceIx) (note vel : BitVec 7) (s : State) :
    startVoice c v note vel s =
      ({ s with lastNote := noteReg note } : State).setVoice v (startedVoice c s v note vel (s.voice v)) := rfl

/-- Settles O41: every line writes the voice that the line before it has left, and the last one leaves
`startedVoice`. -/
theorem startVoiceComposition : Obligations.StartVoiceComposition := by
  unfold Obligations.StartVoiceComposition
  intro v note vel s hready hfirst
  rw [← basePeriod_cfg] at hfirst
  have hstart := exec_synStartVoice_of_ready hready hfirst vel
  rw [startVoice_eq_setVoice, startedVoice_eq] at hstart
  generalize hpanned : pannedVoice cfg s v note (s.voice v) = panned at hstart
  refine ⟨calcPeriod cfg s.p v note.toNat, legato s.voices,
    ({ s with lastNote := noteReg note } : State).setVoice v panned,
    ({ s with lastNote := noteReg note } : State).setVoice v (pulsedVoice cfg s (loudVoice cfg s vel panned)),
    ({ s with lastNote := noteReg note } : State).setVoice v
      (struckVoice cfg s vel (pulsedVoice cfg s (loudVoice cfg s vel panned))),
    _, exec_synCalcPeriod_of_ready hready hfirst, rfl, ?_, ?_, ?_, ?_, hstart⟩
  · rw [← noteDistance_eq, ← hpanned]
    exact exec_voiceUpdatePan_setVoice { s with lastNote := noteReg note } v _
  · rw [← noteDistance_eq, State.setVoice_setVoice, State.voice_setVoice_same, ← hpanned]
    exact exec_oscSquare_pulsedVoice s { s with lastNote := noteReg note } v (loudVoice cfg s vel _)
  · rw [State.setVoice_setVoice, State.voice_setVoice_same, ← hpanned]
    exact exec_envAttack_amp_setVoice { s with lastNote := noteReg note } v _
  · rw [State.setVoice_setVoice, State.voice_setVoice_same]
    exact exec_envAttack_filt_setVoice { s with lastNote := noteReg note } v _

/-! ## SYN.RESTARTMONO -/

/-- The voice of R277 up to UPDATEPAN. -/
def nudgedVoice (c : Config) (s : State) (note : BitVec 7) (old : Voice) : Voice :=
  let per := calcPeriod c s.p 0 note.toNat
  voiceUpdatePan c
    { old with
      target := per
      period := if s.p.glideMode.value = 0 then per else old.period
      env := { old.env with level := old.env.level.add (silenceTwice c) }
      note := noteReg note }

/-- The retriggered voice as its parts in the order of R277. -/
theorem restartedVoice_eq (c : Config) (s : State) (note : BitVec 7) (vel : Int) (old : Voice) :
    restartedVoice c s (noteReg note) vel old =
      let base := baseCutoff c s.sampleRate (calcPeriod c s.p 0 note.toNat)
      { nudgedVoice c s note old with
        cutoff := if 0 < vel then base.mul (velocityFactor c s.p.velocitySensitivity.value vel) else base } := by
  simp only [restartedVoice, nudgedVoice, noteReg_toInt, beq_iff_eq]

/-- Settles O43: UPDATEPAN writes the voice of the lines before it, and the cutoff line writes that voice again. -/
theorem restartMonoComposition : Obligations.RestartMonoComposition := by
  unfold Obligations.RestartMonoComposition
  intro note vel s hready hfirst
  replace hfirst : (basePeriod cfg s.p 0 note.toNat).gt F32.zero = true := by rwa [basePeriod_cfg]
  refine ⟨calcPeriod cfg s.p 0 note.toNat, s.setVoice 0 (nudgedVoice cfg s note (s.voice 0)),
    exec_synCalcPeriod_of_ready hready hfirst, ?_, ?_⟩
  · rw [exec_voiceUpdatePan_setVoice, ← silenceTwice_cfg]
    rfl
  · rw [exec_synRestartMono_of_ready hready hfirst, restartMono, restartedVoice_eq]
    dsimp only
    rw [State.setVoice_setVoice, State.voice_setVoice_same]
    rfl

end Sys2Proof.Machine
end

section
/-! SUPPORT and PROOFS. Note on and note off (spec 47_voice_allocation.md R270 to R272, R283): each path is the call its
rule names, with the call's own refusals. -/

namespace Sys2Proof.Machine

/-! ## Note on -/

theorem exec_synNoteOn_eq (note vel : BitVec 7) (s : State) :
    exec (.synNoteOn note vel) s = guarded (noteOnRefusal cfg note vel s) (noteOn cfg note vel s) := rfl

theorem isMono_iff {s : State} : isMono s = true ↔ s.p.numVoices.value = 1 := beq_iff_eq

theorem isMono_eq_false {s : State} : isMono s = false ↔ s.p.numVoices.value ≠ 1 := beq_eq_false_iff_ne

section NoteOn
variable {s : State} (hignore : s.p.ignoreVelocity.written = true) (hmode : s.p.numVoices.written = true)
include hignore hmode

/-- Past the mode and the velocity flag, which have no range, a note on checks what its path reads. -/
theorem checkReads_noteOn (c : Config) (ids : List ParamId) :
    checkReads c s.p ([.ignoreVelocity, .numVoices] ++ ids) = checkReads c s.p ids :=
  (checkReads_cons (id := .ignoreVelocity) hignore rfl _).trans (checkReads_cons (id := .numVoices) hmode rfl ids)

/-- Mono with a held key: push and retrigger (R271). -/
theorem exec_synNoteOn_of_held (hmono : isMono s = true) (hheld : isHeld (s.voice 0).note = true)
    (note vel : BitVec 7) :
    exec (.synNoteOn note vel) s = exec (.synRestartMono note (noteReg (effectiveVel cfg s vel))) (shiftQ s) := by
  simp only [exec_synNoteOn_eq, noteOnRefusal, noteOn, hmono, hheld, Bool.and_self, if_true,
    checkReads_noteOn hignore hmode, exec_synRestartMono_eq, noteReg_toInt]
  rfl

/-- Mono without a held key: a fresh note on voice 0 (R271). -/
theorem exec_synNoteOn_of_not_held (hmono : isMono s = true) (hheld : isHeld (s.voice 0).note = false)
    (note vel : BitVec 7) :
    exec (.synNoteOn note vel) s = exec (.synStartVoice 0 note (effectiveVel cfg s vel)) s := by
  simp only [exec_synNoteOn_eq, noteOnRefusal, noteOn, hmono, hheld, Bool.and_false,
    Bool.false_eq_true, if_true, if_false, checkReads_noteOn hignore hmode]
  rfl

/-- Poly: a fresh note on the voice SYN.FINDFREE returns (R272). -/
theorem exec_synNoteOn_of_poly (hpoly : isMono s = false) (note vel : BitVec 7) :
    exec (.synNoteOn note vel) s =
      exec (.synStartVoice (findFree cfg s.voices) note (effectiveVel cfg s vel)) s := by
  simp only [exec_synNoteOn_eq, noteOnRefusal, noteOn, hpoly, Bool.false_and,
    Bool.false_eq_true, if_false, checkReads_noteOn hignore hmode]
  rfl

end NoteOn

/-- Settles O46: mode and held key choose the path, and each path is the call of its rule. -/
theorem noteOnComposition : Obligations.NoteOnComposition := by
  unfold Obligations.NoteOnComposition
  intro note vel s hignore hmode vel'
  refine ⟨fun hmono hheld => ⟨shiftQ s, rfl, ?_⟩, fun hmono hheld => ?_, fun hpoly => ⟨findFree cfg s.voices, rfl, ?_⟩⟩
  · exact exec_synNoteOn_of_held hignore hmode (isMono_iff.2 hmono) ((isHeld_iff _).2 hheld) note vel
  · rw [← isHeld_iff, Bool.not_eq_true] at hheld
    exact exec_synNoteOn_of_not_held hignore hmode (isMono_iff.2 hmono) hheld note vel
  · exact exec_synNoteOn_of_poly hignore hmode (isMono_eq_false.2 hpoly) note vel

/-- Settles O47: after the boot of R356 the call of each path completes; the message is SYN.NOTEON. -/
theorem noteOnCompletes : Obligations.NoteOnCompletes := by
  unfold Obligations.NoteOnCompletes
  intro note vel s hready hfirst
  have hignore := (Params.ready_iff.1 hready .ignoreVelocity).1
  have hmode := (Params.ready_iff.1 hready .numVoices).1
  have hnext : ∃ t, exec (.synNoteOn note vel) s = .next t := by
    dsimp only at hfirst
    rw [← basePeriod_cfg] at hfirst
    by_cases hmono : s.p.numVoices.value = 1
    · rw [if_pos hmono] at hfirst
      cases hheld : isHeld (s.voice 0).note with
      | true =>
        rw [exec_synNoteOn_of_held hignore hmode (isMono_iff.2 hmono) hheld]
        exact ⟨_, exec_synRestartMono_of_ready (s := shiftQ s) hready hfirst _⟩
      | false =>
        rw [exec_synNoteOn_of_not_held hignore hmode (isMono_iff.2 hmono) hheld]
        exact ⟨_, exec_synStartVoice_of_ready hready hfirst _⟩
    · rw [if_neg hmono] at hfirst
      rw [exec_synNoteOn_of_poly hignore hmode (isMono_eq_false.2 hmono)]
      exact ⟨_, exec_synStartVoice_of_ready hready hfirst _⟩
  obtain ⟨t, ht⟩ := hnext
  exact ⟨t, ht, fun hvel => (exec_midiNoteOn_of_ne_zero hvel note s).trans ht⟩

/-! ## Note off -/

theorem exec_synNoteOff_eq (note : BitVec 7) (s : State) :
    exec (.synNoteOff note) s = guarded (noteOffRefusal cfg note s) (noteOff cfg note s) := rfl

theorem exec_midiNoteOff_eq (note : BitVec 7) (s : State) :
    exec (.midiNoteOff note) s = exec (.synNoteOff note) s := rfl

/-- The three reasons why a note off restores nothing (R283). -/
theorem restoresQueued_eq_false {s : State} {note : BitVec 7}
    (h : s.p.numVoices.value ≠ 1 ∨ (s.voice 0).note ≠ noteReg note ∨
      ∀ v : VoiceIx, 1 ≤ v.val → ¬0 < (s.voice v).note.toInt) : restoresQueued s note = false := by
  rcases h with hpoly | hother | hempty
  · rw [restoresQueued, isMono_eq_false.2 hpoly, Bool.false_and, Bool.false_and]
  · rw [restoresQueued, beq_eq_false_iff_ne.2 hother, Bool.and_false, Bool.false_and]
  · rw [restoresQueued, nextQNote_of_none (nextQSlot_eq_none hempty)]
    exact Bool.and_false _

section NoteOff
variable {s : State} (hmode : s.p.numVoices.written = true) {note : BitVec 7}
include hmode

/-- A note off that restores nothing sweeps the voices (R283). -/
theorem exec_synNoteOff_of_sweep (h : restoresQueued s note = false) :
    exec (.synNoteOff note) s = .next (s.mapVoices (noteOffVoice cfg s.sustainPedal note)) := by
  have hcheck : checkReads cfg s.p [.numVoices] = none := (checkReads_cons (id := .numVoices) hmode rfl []).trans rfl
  rw [exec_synNoteOff_eq, noteOffRefusal, noteOff, h]
  simp only [Bool.false_eq_true, if_false, hcheck, guarded_none]

/-- A note off that restores a queued note pops it and retriggers voice 0 without velocity (R283). -/
theorem exec_synNoteOff_of_restore (h : restoresQueued s note = true) {q : BitVec 7}
    (hq : nextQNote s.voices = noteReg q) :
    exec (.synNoteOff note) s = exec (.synRestartMono q 0xFF) (nextQPop s) := by
  have hp : (nextQPop s).p = s.p := by rw [nextQPop_frame]
  rw [exec_synNoteOff_eq, noteOffRefusal, noteOff, if_pos h, if_pos h, hq, noteReg_toInt,
    checkReads_cons (id := .numVoices) hmode rfl, exec_synRestartMono_eq, hp]
  rfl

end NoteOff

/-- The sweep's part for one voice, with the words of R283 and R193. -/
theorem noteOffVoice_cfg (pedal : Bool) (note : BitVec 7) (V : Voice) :
    noteOffVoice cfg pedal note V =
      if V.note = noteReg note then
        (if pedal = true then { V with note := 0xFF } else { voiceRelease V with note := 0 })
      else V := by
  simp only [noteOffVoice, beq_iff_eq]
  rfl

/-- Settles O48: the sweep voice by voice; a restored note is the one that SYN.NEXTQ leaves on the result line. -/
theorem noteOff_spec : Obligations.NoteOff := by
  unfold Obligations.NoteOff
  refine ⟨fun note s hmode h => ?_, fun note q s a hmode hmono hsounds hpop hresult hq => ?_⟩
  · have hsweep := exec_synNoteOff_of_sweep hmode (restoresQueued_eq_false h)
    refine ⟨_, hsweep, (exec_midiNoteOff_eq note s).trans hsweep, rfl, fun v => ?_⟩
    rw [State.voice_mapVoices, noteOffVoice_cfg]
    rfl
  · obtain rfl := Host.Outcome.next.inj hpop
    have hnote : nextQNote s.voices = noteReg q := MicroResult.note.inj hresult
    have hpos : isHeld (noteReg q) = true := by
      rw [isHeld_iff, noteReg_toInt, Int.natCast_pos, Nat.pos_iff_ne_zero]
      exact fun hz => hq (BitVec.eq_of_toNat_eq hz)
    have hrestore : restoresQueued s note = true := by
      have hsame : ((s.voice 0).note == noteReg note) = true := beq_iff_eq.2 hsounds
      rw [restoresQueued, isMono_iff.2 hmono, hnote, hpos, hsame]
      rfl
    rw [exec_synNoteOff_of_restore hmode hrestore hnote]
    have hkept : (nextQPop s).result = s.result := by rw [nextQPop_frame]
    rw [← hkept]
    rfl

end Sys2Proof.Machine
end

section
/-! SUPPORT and PROOFS. The host commands and power-on (spec 48_host_commands.md R301 to R304, 70_reset_and_hazards.md
R350): RESET and its idempotence, the sample rate of ALLOC, the parameter file under PSET by index, and the power-on
registers. -/

namespace Sys2Proof.Machine

/-! ## RESET -/

theorem exec_reset_of_rate {s : State} (h : sampleRateInRange cfg s.sampleRate = true) :
    exec .reset s = .next (synthReset cfg s) := by
  rw [exec_reset, execReset, execResetIn, rateRefusal_eq_none.2 h, guarded_none]

theorem rateRefusal_of_out_of_range {c : Config} {fs : F32} (h : sampleRateInRange c fs = false) :
    rateRefusal c fs = some (.paramOutOfRange .sampleRate) := if_neg (Bool.eq_false_iff.1 h)

/-- A second RESET finds every register as the first has left it. -/
theorem synthReset_synthReset (c : Config) (s : State) : synthReset c (synthReset c s) = synthReset c s := by
  have hvoices : (synthReset c s).voices.map (voiceReset c) = (synthReset c s).voices :=
    Bank.ext_get fun v => by simp [synthReset, voiceReset_voiceReset]
  rw [synthReset, hvoices]
  rfl

/-- Settles O18: RESET is its definition with the constants in force; the voices are those of VOICE.RESET. -/
theorem resetCommand : Obligations.ResetCommand := by
  unfold Obligations.ResetCommand
  intro s hrate
  refine ⟨synthReset cfg s, exec_reset_of_rate hrate, ?_, fun v => ?_, rfl⟩
  · rw [exec_reset_of_rate (s := synthReset cfg s) hrate, synthReset_synthReset]
  · have hvoice : (synthReset cfg s).voice v = voiceReset cfg (s.voice v) := Bank.get_map ..
    rw [hvoice]
    rfl

/-! ## ALLOC and DEALLOC -/

theorem sampleRateInRange_cfg_iff {fs : F32} :
    sampleRateInRange cfg fs = true ↔
      fs.isFinite = true ∧ fs.gt ⟨0⟩ = true ∧ ((F32.mk 0x3D4CCCCD).mul fs).lt ⟨0x4F000000⟩ = true := by
  simp only [sampleRateInRange, Bool.and_eq_true, and_assoc]
  rfl

/-- Settles O19: ALLOC is guarded by the range of its rate, whatever the block size. -/
theorem allocAndDealloc : Obligations.AllocAndDealloc := by
  unfold Obligations.AllocAndDealloc
  refine ⟨fun s => rfl, fun blockSize rate s => ?_⟩
  rw [← sampleRateInRange_cfg_iff, exec_alloc, execAlloc, execAllocIn]
  refine ⟨fun h => ?_, fun h => ?_⟩
  · rw [rateRefusal_eq_none.2 h, guarded_none]
  · rw [rateRefusal_of_out_of_range (Bool.eq_false_iff.2 h), guarded_some]

/-! ## PSET -/

/-- Settles O20: each row is its definition. -/
theorem psetRegisters : Obligations.PsetRegisters := by
  unfold Obligations.PsetRegisters
  exact fun s => ⟨fun x => ⟨rfl, rfl, rfl, rfl, rfl, rfl, rfl, rfl, rfl, rfl, rfl, rfl, rfl, rfl, rfl, rfl, rfl, rfl,
    rfl, rfl, rfl, rfl, rfl, rfl⟩, fun x => ⟨rfl, rfl⟩, fun x => rfl⟩

/-- The umbrella row and the row its index decodes to write the same register with the same operand (R86, R304). -/
theorem exec_pset_eq_decodePset (idx : BitVec 8) (wdata : Word) (s : State) :
    exec (.pset idx wdata) s = exec (decodePset idx wdata) s := by
  by_cases h : 27 ≤ idx.toNat
  · rw [decodePset_of_ge wdata h]
  · have hbyte : wdata.extractLsb' 0 8 = wdata.setWidth 8 := (BitVec.setWidth_eq_extractLsb' (by decide)).symm
    rw [exec_pset, execPset, psetByIndex, decodePset, hbyte]
    generalize idx.toNat = n at h
    interval_cases n <;> rfl

/-- PSET marks the register of its index and no other. -/
theorem psetByIndex_written (p : Params) (idx : BitVec 8) (wdata : Word) (id : ParamId) :
    (psetByIndex p idx wdata).written id = if ParamId.all[idx.toNat]? = some id then true else p.written id := by
  by_cases h : 27 ≤ idx.toNat
  · rw [psetByIndex_of_ge p wdata h, List.getElem?_eq_none h, if_neg (by simp)]
  · rw [psetByIndex]
    generalize idx.toNat = n at h
    interval_cases n <;> cases id <;> rfl

/-- Settles O21: index by index the umbrella row is the row of its register. -/
theorem psetByIndex_spec : Obligations.PsetByIndex := by
  unfold Obligations.PsetByIndex
  refine fun idx wdata s => ⟨exec_pset_eq_decodePset idx wdata s, _, rfl, rfl, fun id => ?_⟩
  rw [psetByIndex_written]
  split
  next h => rw [decide_eq_true h, Bool.or_true]
  next h => rw [decide_eq_false h, Bool.or_false]

/-! ## Power-on -/

theorem resetIn_voice (c : Config) (v : VoiceIx) : (State.resetIn c).voice v = Voice.powerOn c := Bank.get_all _ v

theorem powerOn_written (id : ParamId) : Params.powerOn.written id = false := by cases id <;> rfl

/-- Settles O5: every bank is `Voice.powerOn`, and every register holds its value by definition; of a configuration only
the parameters of R8 that R46 names enter. -/
theorem powerOnState : Obligations.PowerOnState := by
  unfold Obligations.PowerOnState
  refine ⟨rfl, fun v => ?_, rfl, rfl, rfl, rfl, rfl, rfl, rfl, rfl, rfl, rfl, rfl, rfl, powerOn_written,
    fun k => ⟨rfl, rfl⟩, fun c => ⟨rfl, fun v => ?_⟩⟩
  · rw [reset_voice]
    refine ⟨rfl, rfl, rfl, rfl, rfl, rfl, rfl, rfl, rfl, rfl, rfl, rfl, rfl, rfl, fun o => ?_, rfl, rfl, rfl, rfl⟩
    cases o
    · exact ⟨rfl, rfl, rfl, rfl, rfl, rfl, rfl, rfl, rfl, rfl⟩
    · exact ⟨rfl, rfl, rfl, rfl, rfl, rfl, rfl, rfl, rfl, rfl⟩
  · rw [resetIn_voice, reset_voice]
    rfl

end Sys2Proof.Machine
end

section
/-! SUPPORT and PROOFS. Where a command is refused (spec 60_exceptions.md R320 to R326, R330): what a check on the
parameter file names, what each refusal can be, and that whatever is not refused completes. -/

namespace Sys2Proof.Machine

/-! ## What a check names -/

/-- A check that names an unwritten register names it whatever else is to be checked after it (R322's order). -/
theorem checkReads_append_unwritten {c : Config} {p : Params} {ids : List ParamId} {id : ParamId}
    (h : checkReads c p ids = some (.unwrittenParam id)) (more : List ParamId) :
    checkReads c p (ids ++ more) = some (.unwrittenParam id) := by
  cases hfind : ids.find? fun id => !p.written id with
  | none =>
    simp only [checkReads, hfind] at h
    split at h <;> simp at h
  | some j =>
    simp only [checkReads, hfind, Option.some.injEq, Refusal.unwrittenParam.injEq] at h
    simp [checkReads, List.find?_append, hfind, h]

section Guarded
variable {i : Instr} {s t : State} {ids : List ParamId} {more : Option Refusal}
  (hexec : exec i s = guarded ((checkReads cfg s.p ids).or more) t)
include hexec

/-- A command whose check begins with an unwritten register among `first` is refused for one of them. -/
theorem exec_refused_unwritten {first rest : List ParamId} (hids : ids = first ++ rest)
    (h : ∃ id ∈ first, s.p.written id = false) :
    ∃ id ∈ first, s.p.written id = false ∧ exec i s = .refused (.unwrittenParam id) := by
  obtain ⟨id, hmem, hw, hcheck⟩ := checkReads_unwritten (c := cfg) h
  refine ⟨id, hmem, hw, ?_⟩
  rw [hexec, hids, checkReads_append_unwritten hcheck rest]
  rfl

/-- R322 and R324 for a command that checks the registers `ids` first. -/
theorem paramPreconditions_of_guarded {reads : ParamId → Prop} {otherwise : Prop} (hreads : ∀ id, reads id ↔ id ∈ ids)
    (hlegal : (∀ id, reads id → s.p.written id = true ∧ s.p.inRange cfg id = true) → exec i s = guarded more t →
      otherwise) : ParamPreconditions i s reads otherwise := by
  unfold ParamPreconditions
  simp only [hreads] at hlegal ⊢
  refine ⟨exec_refused_unwritten hexec (List.append_nil ids).symm, fun hw hr => ?_, fun hok => hlegal hok ?_⟩
  · obtain ⟨id, hmem, hrange, hcheck⟩ := checkReads_outOfRange hw hr
    refine ⟨id, hmem, hrange, ?_⟩
    rw [hexec, hcheck]
    rfl
  · rw [hexec, checkReads_eq_none.2 hok, Option.none_or]

end Guarded

/-- A command that is refused for an unwritten register has none of the other cases. -/
theorem paramPreconditions_of_unwritten {i : Instr} {s : State} {reads : ParamId → Prop} {otherwise : Prop}
    (hrefused : ∃ id, reads id ∧ s.p.written id = false ∧ exec i s = .refused (.unwrittenParam id)) :
    ParamPreconditions i s reads otherwise := by
  have ⟨id, hread, hw, _⟩ := hrefused
  have hcontra {P : Prop} (hall : s.p.written id = true) : P := absurd hall (Bool.eq_false_iff.1 hw)
  exact ⟨fun _ => hrefused, fun hall _ => hcontra (hall id hread), fun hall => hcontra (hall id hread).1⟩

/-! ## What a refusal can be -/

/-- The classes of R322 that are about a parameter, a sample rate or the doubling loop. -/
def Refusal.IsParameter (r : Refusal) : Prop := (∃ id, r = .unwrittenParam id) ∨ ∃ what, r = .paramOutOfRange what

theorem checkReads_isParameter {c : Config} {p : Params} {ids : List ParamId} {r : Refusal}
    (h : checkReads c p ids = some r) : r.IsParameter := checkReads_eq_some h

theorem rateRefusal_isParameter {c : Config} {fs : F32} {r : Refusal} (h : rateRefusal c fs = some r) :
    r.IsParameter := by
  unfold rateRefusal at h
  split at h
  · cases h
  · exact .inr ⟨_, (Option.some.inj h).symm⟩

theorem checkReads_or_periodRefusal_isParameter {c : Config} {p q : Params} {ids : List ParamId} {v : VoiceIx}
    {note : Int} {r : Refusal} (h : (checkReads c p ids).or (periodRefusal c q v note) = some r) : r.IsParameter := by
  rcases Option.or_eq_some_iff.1 h with hcheck | ⟨-, hloop⟩
  · exact checkReads_isParameter hcheck
  · unfold periodRefusal at hloop
    split at hloop
    · exact .inr ⟨_, (Option.some.inj hloop).symm⟩
    · cases hloop

theorem noteOnRefusal_isParameter {c : Config} {note vel : BitVec 7} {s : State} {r : Refusal}
    (h : noteOnRefusal c note vel s = some r) : r.IsParameter := by
  unfold noteOnRefusal at h
  dsimp only at h
  split at h
  · exact checkReads_or_periodRefusal_isParameter h
  · exact checkReads_or_periodRefusal_isParameter h

theorem noteOffRefusal_isParameter {c : Config} {note : BitVec 7} {s : State} {r : Refusal}
    (h : noteOffRefusal c note s = some r) : r.IsParameter := by
  unfold noteOffRefusal at h
  split at h
  · exact checkReads_or_periodRefusal_isParameter h
  · exact checkReads_isParameter h

theorem noteOnMsg_isParameter {c : Config} {note vel : BitVec 7} {s : State} {r : Refusal}
    (h : noteOnMsg c note vel s = .refused r) : r.IsParameter := by
  unfold noteOnMsg at h
  split at h
  · exact noteOffRefusal_isParameter (guarded_eq_refused.1 h)
  · exact noteOnRefusal_isParameter (guarded_eq_refused.1 h)

theorem midiMessage_isParameter {c : Config} {b0 b1 b2 : BitVec 8} {s : State} {r : Refusal}
    (h : midiMessage c b0 b1 b2 s = .refused r) : r.IsParameter := by
  unfold midiMessage at h
  dsimp only at h
  split at h
  · exact noteOffRefusal_isParameter (guarded_eq_refused.1 h)
  · exact noteOnMsg_isParameter h
  all_goals cases h

theorem lfoRefusal_isParameter {c : Config} {s : State} {r : Refusal} {ids : List ParamId}
    (h : (if s.lfoStep - 1 ≤ 0 then checkReads c s.p ids else none) = some r) : r.IsParameter := by
  split at h
  · exact checkReads_isParameter h
  · cases h

/-- RENDER is refused as not allocated, or for a parameter, where the block is within OUT_CAPACITY. -/
theorem renderRefusal_cases {c : Config} {n : Nat} {s : State} {r : Refusal} (hn : n ≤ c.outCapacity)
    (h : renderRefusal c n s = some r) : r = .notAllocated ∨ r.IsParameter := by
  unfold renderRefusal capacityRefusal at h
  rw [if_neg (not_lt.2 hn), Option.or_none] at h
  split at h
  · exact .inl (Option.some.inj h).symm
  · exact .inr (checkReads_isParameter h)

/-- What a refusal of any instruction is. -/
theorem exec_refused_cases {i : Instr} {s : State} {r : Refusal} (h : exec i s = .refused r) :
    (r = .notAllocated ∧ ∃ stereo n, i = .render stereo n) ∨ r.IsParameter := by
  cases i with
  | render stereo n =>
    refine (renderRefusal_cases (block_within_capacity n) (guarded_eq_refused.1 h)).imp_left fun hr => ?_
    exact ⟨hr, stereo, n, rfl⟩
  | reset | alloc => exact .inr (rateRefusal_isParameter (guarded_eq_refused.1 h))
  | midi => exact .inr (midiMessage_isParameter h)
  | midiNoteOn => exact .inr (noteOnMsg_isParameter h)
  | midiNoteOff | synNoteOff => exact .inr (noteOffRefusal_isParameter (guarded_eq_refused.1 h))
  | synNoteOn => exact .inr (noteOnRefusal_isParameter (guarded_eq_refused.1 h))
  | synCalcPeriod | synStartVoice | synRestartMono =>
    exact .inr (checkReads_or_periodRefusal_isParameter (guarded_eq_refused.1 h))
  | synLfoStep => exact .inr (lfoRefusal_isParameter (guarded_eq_refused.1 h))
  | synUpdatePeriod => exact .inr (checkReads_isParameter (guarded_eq_refused.1 h))
  | _ => cases (show Host.Outcome.next _ = Host.Outcome.refused r from h)

/-- Settles O13: no fault has a constructor, a refusal is one of `exec_refused_cases`, and an instruction with no
precondition answers its effect by definition. -/
theorem onlyPreconditionsRefuse : Obligations.OnlyPreconditionsRefuse := by
  unfold Obligations.OnlyPreconditionsRefuse
  refine fun i s => ⟨fun f => (nomatch f), fun r h => exec_refused_cases h, ?_⟩
  cases i with
  | reset | alloc | midi | render | midiNoteOff | midiNoteOn | synNoteOn | synNoteOff | synCalcPeriod | synStartVoice
  | synRestartMono | synLfoStep | synUpdatePeriod => trivial
  | _ => exact ⟨_, rfl⟩

/-! ## RENDER -/

theorem anyActive_iff {c : Config} {s : State} :
    anyActive c s = true ↔ ∃ v, (s.voice v).env.level.gt c.silence = true := Bank.any_toList

theorem mem_tickReads {active : Bool} {id : ParamId} :
    id ∈ tickReads active ↔
      id ∈ [.lfoInc, .vibrato, .pwmDepth, .filterKeyTracking, .filterLFODepth] ∨ (active = true ∧ id = .detune) := by
  rw [tickReads, List.mem_append, List.mem_ite_nil_right, List.mem_singleton]

/-- The registers of R211, R212 and R214 that a block reads (log 21); the tick's `detune` is among the copies. -/
theorem mem_renderReads {c : Config} {n : Nat} {s : State} {id : ParamId} :
    id ∈ renderReads c n s ↔
      id = .outputLevel ∨ (anyActive c s = true ∧ id ∈ [.detune, .glideRate, .filterQ, .filterEnvDepth]) ∨
        (0 < n ∧ id = .noiseMix) ∨
        (0 < n ∧ s.lfoStep ≤ n ∧ id ∈ [.lfoInc, .vibrato, .pwmDepth, .filterKeyTracking, .filterLFODepth]) := by
  have hdetune : id = .detune → id ∈ [ParamId.detune, .glideRate, .filterQ, .filterEnvDepth] := fun h => by simp [h]
  rw [renderReads, List.mem_append, List.mem_append, List.mem_append, List.mem_singleton, List.mem_ite_nil_right,
    List.mem_ite_nil_left, List.mem_ite_nil_left, List.mem_singleton, mem_tickReads, not_or, not_lt,
    Nat.pos_iff_ne_zero]
  generalize (id ∈ [ParamId.detune, .glideRate, .filterQ, .filterEnvDepth]) = copied at hdetune ⊢
  generalize (id ∈ [ParamId.lfoInc, .vibrato, .pwmDepth, .filterKeyTracking, .filterLFODepth]) = ticked
  tauto

/-- RENDER while allocated is guarded by the registers it reads; no block is beyond the capacity in force. -/
theorem exec_render_of_allocated {s : State} (h : s.allocated = true) (stereo : Bool) (n : BitVec 23) :
    exec (.render stereo n) s =
      guarded ((checkReads cfg s.p (renderReads cfg n.toNat s)).or none) (renderBlock cfg stereo n.toNat s) := by
  rw [exec_render, execRender, execRenderIn, renderRefusal, h, capacityRefusal,
    if_neg (not_lt.2 (block_within_capacity n))]
  rfl

theorem exec_render_of_not_allocated {s : State} (h : s.allocated = false) (stereo : Bool) (n : BitVec 23) :
    exec (.render stereo n) s = .refused .notAllocated := by
  rw [exec_render, execRender, execRenderIn, renderRefusal, h]
  rfl

/-- A longer block, where nothing else is broken, is refused as such (log 23). -/
theorem execIn_render_beyond {c : Config} {s : State} (ha : s.allocated = true) (hr : s.p.ready c = true)
    (stereo : Bool) {n : BitVec 23} (hn : c.outCapacity < n.toNat) :
    execIn c (.render stereo n) s = .refused .blockBeyondCapacity := by
  show execRenderIn c stereo n s = _
  rw [execRenderIn, renderRefusal, ha, checkReads_of_ready hr, capacityRefusal, if_pos hn]
  rfl

/-- Settles O53: RENDER is guarded by the flag, then by the registers of `mem_renderReads`, then by the capacity. -/
theorem renderRefusals : Obligations.RenderRefusals := by
  unfold Obligations.RenderRefusals
  refine ⟨fun stereo n s => ⟨fun ha => exec_render_of_not_allocated ha stereo n, fun ha => ?_⟩, fun c stereo n s =>
    ⟨fun hn => execRenderIn_beyond hn stereo s, fun ha hr => ⟨execIn_render_beyond ha hr stereo,
      fun hn => ⟨_, execRenderIn_of_ready ha hr stereo hn⟩⟩⟩⟩
  refine paramPreconditions_of_guarded (exec_render_of_allocated ha stereo n) (fun id => ?_) fun _ hnext => ⟨_, hnext⟩
  rw [mem_renderReads, anyActive_iff]
  rfl

end Sys2Proof.Machine
end

section
/-! SUPPORT and PROOFS. Where the other parameter-reading instructions are refused (spec 60_exceptions.md R324, R326,
47_voice_allocation.md R274): the registers each of them checks, and the doubling loop past them. -/

namespace Sys2Proof.Machine

/-! ## Past the registers: the doubling loop -/

/-- With legal `tune` and `detune` the loop alone decides: refused without a positive first line, else complete. -/
theorem exec_of_guarded_periodRefusal {i : Instr} {s t : State} {v : VoiceIx} {note : BitVec 7}
    (ht : s.p.inRange cfg .tune = true) (hd : s.p.inRange cfg .detune = true)
    (hexec : exec i s = guarded (periodRefusal cfg s.p v note.toNat) t) :
    ((basePeriod cfg s.p v note.toNat).gt F32.zero = false → exec i s = .refused (.paramOutOfRange .periodLoop)) ∧
      ((basePeriod cfg s.p v note.toNat).gt F32.zero = true → ∃ t, exec i s = .next t) := by
  refine ⟨fun h => ?_, fun h => ⟨t, ?_⟩⟩
  · rw [hexec, periodRefusal_of_eq_zero (by decide) (basePeriod_eq_zero ht h)]
    rfl
  · rw [hexec, periodRefusal_of_gt_zero hd h]
    rfl

/-! ## The registers a micro-operation reads -/

theorem mem_restartMonoReads {vel : Int} {id : ParamId} :
    id ∈ restartMonoReads vel ↔ id ∈ [.tune, .detune, .glideMode] ∨ (0 < vel ∧ id = .velocitySensitivity) := by
  rw [restartMonoReads, List.mem_append, List.mem_ite_nil_right, List.mem_singleton]
  rfl

/-- What SYN.STARTVOICE reads up to `vibrato`, which decides whether it reads `pwmDepth`. -/
def readsUpToVibrato (s : State) : List ParamId :=
  calcPeriodReads ++ ((if s.lastNote != 0 then [ParamId.glideMode] else []) ++
    [ParamId.glideBend, .volumeTrim, .oscMix, .vibrato])

theorem mem_readsUpToVibrato {s : State} {id : ParamId} :
    id ∈ readsUpToVibrato s ↔
      id ∈ [.tune, .detune] ∨ (s.lastNote ≠ 0 ∧ id = .glideMode) ∨
        id ∈ [.glideBend, .volumeTrim, .oscMix, .vibrato] := by
  rw [readsUpToVibrato, List.mem_append, List.mem_append, List.mem_ite_nil_right, List.mem_singleton, bne_iff_ne]
  rfl

/-- What SYN.STARTVOICE reads from `vibrato` on. -/
def readsAfterVibrato (s : State) : List ParamId :=
  (if s.p.vibrato.value.feq F32.zero then [ParamId.pwmDepth] else []) ++ ([ParamId.velocitySensitivity] ++
    ([ParamId.envAttack, .envDecay, .envSustain, .envRelease] ++
      [ParamId.filterAttack, .filterDecay, .filterSustain, .filterRelease]))

theorem startVoiceReads_eq_append (s : State) : startVoiceReads s = readsUpToVibrato s ++ readsAfterVibrato s := by
  simp only [startVoiceReads, readsUpToVibrato, readsAfterVibrato, List.append_assoc, List.cons_append, List.nil_append]

/-- The registers that SYN.STARTVOICE reads in every state, but the envelopes' coefficients. -/
theorem mem_startVoiceScalars {id : ParamId} :
    id ∈ [ParamId.tune, .detune, .glideBend, .volumeTrim, .oscMix, .vibrato, .velocitySensitivity] ↔
      id ∈ [ParamId.tune, .detune] ∨ id ∈ [ParamId.glideBend, .volumeTrim, .oscMix, .vibrato] ∨
        id = .velocitySensitivity := by
  rw [← List.mem_singleton, ← List.mem_append, ← List.mem_append]
  rfl

/-- The registers of R276 that SYN.STARTVOICE reads once `vibrato` is known to hold a value. -/
theorem mem_startVoiceReads {s : State} (hw : s.p.vibrato.written = true) {id : ParamId} :
    id ∈ startVoiceReads s ↔
      id ∈ [.tune, .detune, .glideBend, .volumeTrim, .oscMix, .vibrato, .velocitySensitivity] ∨
        id ∈ [.envAttack, .envDecay, .envSustain, .envRelease] ∨
        id ∈ [.filterAttack, .filterDecay, .filterSustain, .filterRelease] ∨
        (s.lastNote ≠ 0 ∧ id = .glideMode) ∨
        (s.p.vibrato.written = true ∧ s.p.vibrato.value.feq F32.zero = true ∧ id = .pwmDepth) := by
  rw [startVoiceReads_eq_append, List.mem_append, mem_readsUpToVibrato, readsAfterVibrato, List.mem_append,
    List.mem_append, List.mem_append, List.mem_ite_nil_right, List.mem_singleton, List.mem_singleton,
    mem_startVoiceScalars, hw, eq_self, true_and]
  exact iff_of_eq (by ac_rfl)

/-- R324 and R326 for SYN.STARTVOICE. While `vibrato` is unwritten it, or a register before it, is the one named. -/
theorem synStartVoice_preconditions (v : VoiceIx) (note vel : BitVec 7) (s : State) {otherwise : Prop}
    (hlegal : s.p.inRange cfg .tune = true → s.p.inRange cfg .detune = true →
      exec (.synStartVoice v note vel) s =
        guarded (periodRefusal cfg s.p v note.toNat) (startVoice cfg v note vel s) → otherwise) :
    ParamPreconditions (.synStartVoice v note vel) s
      (fun id =>
        id ∈ [.tune, .detune, .glideBend, .volumeTrim, .oscMix, .vibrato, .velocitySensitivity] ∨
        id ∈ [.envAttack, .envDecay, .envSustain, .envRelease] ∨
        id ∈ [.filterAttack, .filterDecay, .filterSustain, .filterRelease] ∨
        (s.lastNote ≠ 0 ∧ id = .glideMode) ∨
        (s.p.vibrato.written = true ∧ s.p.vibrato.value.feq F32.zero = true ∧ id = .pwmDepth)) otherwise := by
  cases hw : s.p.vibrato.written with
  | true =>
    refine paramPreconditions_of_guarded (exec_synStartVoice_eq v note vel s)
      (fun id => by rw [mem_startVoiceReads hw, hw]) fun hok => hlegal (hok .tune ?_).2 (hok .detune ?_).2
    · simp
    · simp
  | false =>
    obtain ⟨id, hmem, hunwritten, hrefused⟩ := exec_refused_unwritten (exec_synStartVoice_eq v note vel s)
      (startVoiceReads_eq_append s) ⟨.vibrato, mem_readsUpToVibrato.2 (by simp), hw⟩
    refine paramPreconditions_of_unwritten ⟨id, ?_, hunwritten, hrefused⟩
    rcases mem_readsUpToVibrato.1 hmem with h | h | h
    · exact .inl (mem_startVoiceScalars.2 (.inl h))
    · exact .inr (.inr (.inr (.inl h)))
    · exact .inl (mem_startVoiceScalars.2 (.inr (.inl h)))

/-! ## The note operations -/

/-- A note on checks the velocity flag and the mode before anything else (R270). -/
theorem exec_synNoteOn_checks (note vel : BitVec 7) (s : State) :
    ∃ rest more t, exec (.synNoteOn note vel) s =
      guarded ((checkReads cfg s.p ([.ignoreVelocity, .numVoices] ++ rest)).or more) t := by
  rw [exec_synNoteOn_eq, noteOnRefusal]
  dsimp only
  split
  next => exact ⟨_, _, _, rfl⟩
  next => exact ⟨_, _, _, rfl⟩

/-- A note off checks the mode before anything else (R283). -/
theorem exec_synNoteOff_checks (note : BitVec 7) (s : State) :
    ∃ rest more t, exec (.synNoteOff note) s = guarded ((checkReads cfg s.p ([.numVoices] ++ rest)).or more) t := by
  rw [exec_synNoteOff_eq, noteOffRefusal]
  split
  next => exact ⟨_, _, _, rfl⟩
  next => exact ⟨[], none, _, by rw [Option.or_none]; rfl⟩

theorem exec_synNoteOn_unwritten {s : State}
    (h : s.p.ignoreVelocity.written = false ∨ s.p.numVoices.written = false) (note vel : BitVec 7) :
    ∃ id ∈ [ParamId.ignoreVelocity, .numVoices], s.p.written id = false ∧
      exec (.synNoteOn note vel) s = .refused (.unwrittenParam id) := by
  obtain ⟨rest, more, t, hexec⟩ := exec_synNoteOn_checks note vel s
  refine exec_refused_unwritten hexec rfl ?_
  rcases h with h | h
  · exact ⟨.ignoreVelocity, by simp, h⟩
  · exact ⟨.numVoices, by simp, h⟩

theorem exec_synNoteOff_unwritten {s : State} (h : s.p.numVoices.written = false) (note : BitVec 7) :
    exec (.synNoteOff note) s = .refused (.unwrittenParam .numVoices) := by
  obtain ⟨rest, more, t, hexec⟩ := exec_synNoteOff_checks note s
  obtain ⟨id, hmem, -, hrefused⟩ := exec_refused_unwritten hexec rfl ⟨.numVoices, by simp, h⟩
  rwa [List.mem_singleton.1 hmem] at hrefused

/-! ## The LFO and the oscillator periods -/

theorem exec_synLfoStep_of_tick {s : State} (h : s.lfoStep ≤ 1) :
    exec .synLfoStep s = guarded ((checkReads cfg s.p (tickReads (anyActive cfg s))).or none) (lfoStep cfg s) := by
  rw [exec_synLfoStep, execSynLfoStep, execSynLfoStepIn, if_pos (by omega), Option.or_none]

theorem exec_synUpdatePeriod_eq (v : VoiceIx) (s : State) :
    exec (.synUpdatePeriod v) s =
      guarded ((checkReads cfg s.p [.detune]).or none)
        (s.setVoice v (updatePeriod s.pitchBend s.p.detune.value (s.voice v))) := by
  rw [Option.or_none]
  rfl

/-! ## The ranges -/

theorem multiplierInRange_iff {x : F32} : multiplierInRange x = true ↔ x.ge ⟨0⟩ = true ∧ x.lt ⟨0x3F800000⟩ = true :=
  Bool.and_eq_true_iff

theorem glideRateInRange_iff {x : F32} : glideRateInRange x = true ↔ x.gt ⟨0⟩ = true ∧ x.le ⟨0x3F800000⟩ = true :=
  Bool.and_eq_true_iff

theorem lfoIncInRange_cfg_iff {x : F32} :
    lfoIncInRange cfg x = true ↔ x.ge ⟨0⟩ = true ∧ x.lt ⟨0x40C90FDB⟩ = true :=
  Bool.and_eq_true_iff

/-- Under every configuration a first line of zero never gets long enough (R274). -/
theorem execIn_synCalcPeriod_of_eq_zero {c : Config} {v : VoiceIx} {note : BitVec 7} {s : State}
    (hwt : s.p.tune.written = true) (hwd : s.p.detune.written = true) (ht : tuneInRange s.p.tune.value = true)
    (hd : detuneInRange s.p.detune.value = true) (hmin : c.minPeriod.gt F32.zero = true)
    (hfirst : basePeriod c s.p v note.toNat = F32.zero) :
    execIn c (.synCalcPeriod v note) s = .refused (.paramOutOfRange .periodLoop) := by
  show execSynCalcPeriodIn c v note s = _
  rw [execSynCalcPeriodIn, checkReads_calcPeriodReads hwt hwd ht hd, periodRefusal_of_eq_zero hmin hfirst]
  rfl

/-- Settles O60: each instruction is guarded by the registers it reads, then by the loop where it has one; the ranges
are their definitions. -/
theorem parameterPreconditions : Obligations.ParameterPreconditions := by
  unfold Obligations.ParameterPreconditions
  refine ⟨fun s => ⟨fun v note => ?loop, fun note vel => ?notes, fun htick => ?lfo, fun v => ?period,
    fun hrate => ?reset, fun c v note hwt hwd ht hd hmin hfirst => ?anyConfig⟩, fun p => ?ranges⟩
  case loop =>
    dsimp only
    rw [← basePeriod_cfg]
    refine ⟨?_, fun vel => ?_, ?_⟩
    · refine paramPreconditions_of_guarded (exec_synCalcPeriod_eq v note s) (fun _ => Iff.rfl) fun hok => ?_
      exact exec_of_guarded_periodRefusal (hok .tune (by simp)).2 (hok .detune (by simp)).2
    · exact synStartVoice_preconditions v note vel s exec_of_guarded_periodRefusal
    · rintro rfl vel
      refine paramPreconditions_of_guarded (exec_synRestartMono_eq note vel s) (fun _ => mem_restartMonoReads.symm)
        fun hok => ?_
      exact exec_of_guarded_periodRefusal (hok .tune (by simp)).2 (hok .detune (by simp)).2
  case notes =>
    refine ⟨fun h => ?_, fun h => ?_⟩
    · obtain ⟨id, hmem, hw, hrefused⟩ := exec_synNoteOn_unwritten h note vel
      exact ⟨id, hmem, hw, hrefused, fun hvel => (exec_midiNoteOn_of_ne_zero hvel note s).trans hrefused⟩
    · have hrefused := exec_synNoteOff_unwritten h note
      exact ⟨hrefused, hrefused, hrefused⟩
  case lfo =>
    refine paramPreconditions_of_guarded (exec_synLfoStep_of_tick htick) (fun id => ?_) fun _ hnext => ⟨_, hnext⟩
    rw [mem_tickReads, anyActive_iff]
    rfl
  case period =>
    exact paramPreconditions_of_guarded (exec_synUpdatePeriod_eq v s) (fun _ => List.mem_singleton.symm)
      fun _ hnext => ⟨_, hnext⟩
  case reset =>
    rw [exec_reset, execReset, execResetIn, rateRefusal_of_out_of_range hrate, guarded_some]
  case anyConfig =>
    exact execIn_synCalcPeriod_of_eq_zero hwt hwd ht hd hmin hfirst
  case ranges =>
    refine ⟨tuneInRange_iff, detuneInRange_iff, ?_, ?_, glideRateInRange_iff, lfoIncInRange_cfg_iff, ?_, rfl, rfl, rfl⟩
    · simp only [List.forall_mem_cons, List.not_mem_nil, false_imp_iff, implies_true, and_true]
      exact ⟨multiplierInRange_iff, multiplierInRange_iff, multiplierInRange_iff, multiplierInRange_iff,
        multiplierInRange_iff, multiplierInRange_iff⟩
    · simp only [List.forall_mem_cons, List.not_mem_nil, false_imp_iff, implies_true, and_true]
      exact ⟨Bool.and_eq_true_iff, Bool.and_eq_true_iff⟩
    · simp only [List.forall_mem_cons, List.not_mem_nil, false_imp_iff, implies_true, and_true]
      exact ⟨rfl, rfl, rfl, rfl, rfl, rfl, rfl, rfl, rfl, rfl, rfl, rfl⟩

end Sys2Proof.Machine
end
